-- ==== Sys2Proof/Word.lean ====
section
/-! DEFINITION. The bit types of the engine: pin levels, bytes and command words. -/

namespace Sys2Proof

/-- A pin level as one bit (30_encoding.md R76). -/
abbrev Bit := BitVec 1

/-- SHREG, RESULT, OPC and OPD are bytes (10_state.md R25, R26; 30_encoding.md R70). -/
abbrev Byte := BitVec 8

/-- A command word, transferred whole (30_encoding.md R70). -/
abbrev CmdWord := BitVec 16

/-- Level low is bit 0 (30_encoding.md R76). -/
abbrev low : Bit := 0#1

/-- Level high is bit 1 (30_encoding.md R76). -/
abbrev high : Bit := 1#1

end Sys2Proof
end

