-- ==== Sys2Proof/Config.lean ====
section
/-! DEFINITION. What one engine instance is built with (00_scope.md R6 to R8), the five pin roles and their modes,
the moves of everything outside the engine, and the free values: constants without a body for what the spec leaves to
the environment. -/

namespace Sys2Proof

/-- The pin roles (20_memory.md R50). C0 and C1 exist only when HAS_CHAN. -/
inductive Pin where
  | cs | clk | din | c0 | c1
deriving DecidableEq, Repr

/-- The values of MODE[p] (10_state.md R22, 30_encoding.md R77). Code 3 is not representable. -/
inductive PinMode where
  | unconfigured | inputPullup | output
deriving DecidableEq, Repr

/-- The code of a pin mode (30_encoding.md R77). -/
def PinMode.code : PinMode → BitVec 2
  | .unconfigured => 0
  | .inputPullup => 1
  | .output => 2

/-- The packagings of 00_scope.md R7 as the legal pairs (HAS_CHAN, FIXED_CHANNEL). The pair (false, c) is no
configuration and cannot be written down. -/
inductive Packaging where
  /-- HAS_CHAN false, FIXED_CHANNEL none: the 3-pin engine. -/
  | threePin
  /-- HAS_CHAN true, FIXED_CHANNEL none. -/
  | multiChannel
  /-- HAS_CHAN true, FIXED_CHANNEL = c. -/
  | fixedChannel (c : BitVec 2)
deriving DecidableEq, Repr

/-- The parameters of one engine instance (00_scope.md R6 to R8). A value of this type never changes during a run.
The two proof fields are the bound on W_T of R8 and, DEDUCED from 41_sequencer_phases.md R130, that the dead-time fits
the time base (log entry 3). -/
structure Params where
  packaging : Packaging
  /-- W_T, the width of NOW and of T_DESEL. -/
  wT : Nat
  tCsh : Nat
  tCss : Nat
  tCkh : Nat
  tCkl : Nat
  tChSetup : Nat
  wT_ge : 2 ≤ wT
  tCsh_lt : tCsh < 2 ^ wT
deriving DecidableEq, Repr

/-- The default parameters (00_scope.md R6 and R8), in the multi-channel packaging. -/
def Params.default : Params where
  packaging := .multiChannel
  wT := 32
  tCsh := 2
  tCss := 2
  tCkh := 5
  tCkl := 6
  tChSetup := 0
  wT_ge := by decide
  tCsh_lt := by decide

/-- HAS_CHAN (00_scope.md R7). -/
def Params.hasChan (c : Params) : Bool :=
  match c.packaging with
  | .threePin => false
  | .multiChannel => true
  | .fixedChannel _ => true

/-- FIXED_CHANNEL (00_scope.md R7). -/
def Params.fixedChannel (c : Params) : Option (BitVec 2) :=
  match c.packaging with
  | .threePin => none
  | .multiChannel => none
  | .fixedChannel ch => some ch

/-- Which pins an instance has: three or five (20_memory.md R50, 90_conflicts.md C2). -/
def Params.hasPin (c : Params) : Pin → Bool
  | .cs => true
  | .clk => true
  | .din => true
  | .c0 => c.hasChan
  | .c1 => c.hasChan

/-- N_DATA, fixed at the width of the shift register (00_scope.md R6). -/
def Config.nData : Nat := 8

/-- T_SENTINEL (00_scope.md R6, 10_state.md R24). -/
def Config.tSentinel : Nat := 0

/-- What may happen next from outside the engine's registers: time, the host, and the choice that the engine now takes
its own event. The spec leaves every one of these choices open (40_host_commands.md R91, R104; 41_sequencer_phases.md
R110, R127). -/
inductive Move where
  /-- TIME PASSES by `d` microseconds (R127). -/
  | pass (d : Nat)
  /-- TIME PASSES up to ideal time `t`, if that is still ahead (R127; the directive `AT t` of R81). -/
  | passUntil (t : Nat)
  /-- TIME PASSES until the selected micro-step is enabled, and by one gap more (R127, 40_host_commands.md R97). -/
  | await
  /-- The engine takes the micro-step its sequencer state selects, at the current time (R110). -/
  | go
  /-- The host presents a command word, which is accepted event by event: a CONV goes through ACCEPT (R91, R111). -/
  | present (w : CmdWord)
  /-- The host presents a command word, which is taken as one transition from acceptance to completion (R93, R94). -/
  | call (w : CmdWord)
  /-- The reset event (70_reset_and_hazards.md R180). -/
  | reset
deriving DecidableEq, Repr, Inhabited

/-- The level of the `n`-th DIN read when no script gives it: a free draw (20_memory.md R55). Log entry 6. -/
opaque Config.freeDin : Nat → Bit

/-- The `n`-th slack of the environment beyond a lower bound when no script gives it (20_memory.md R57). Log entry 7. -/
opaque Config.freeGap : Nat → Nat

/-- The `n`-th move of the environment when no script gives it (40_host_commands.md R91, R104). Log entry 8. -/
opaque Config.freeMove : Nat → Move

/-- What the latch of pin `p` holds after the `n`-th reset event: unspecified (10_state.md R33). Log entry 9. -/
opaque Config.freeResetLatch : Pin → Nat → Bit

/-- SHREG after the `n`-th reset event: unspecified (10_state.md R33). Log entry 9. -/
opaque Config.freeResetShreg : Nat → Byte

/-- RESULT after the `n`-th reset event: unspecified (10_state.md R33). Log entry 9. -/
opaque Config.freeResetResult : Nat → Byte

/-- BITCNT after the `n`-th reset event: unspecified (10_state.md R33). DESIGN CHOICE, safe: it ranges over all sixteen values
of the 4-bit register, as 93_implementation_defined.md U10 has it, and not over 0 to 8 alone, the values U12 and R144 say are
held. Log entries 9 and 27. -/
opaque Config.freeResetBitcnt : Nat → BitVec 4

/-- CHSEL after the `n`-th reset event: unspecified (10_state.md R33). Log entry 9. -/
opaque Config.freeResetChsel : Nat → BitVec 2

/-- The level on the wire of a pin the engine does not drive, at ideal time `t` (20_memory.md R53). Log entry 10. -/
opaque Config.freeWire : Pin → Nat → Bit

end Sys2Proof
end

