-- ==== Sys2Proof/Syntax.lean ====
section
/-! DEFINITION. The instructions: one constructor per row of spec/opcode_table.json. The first ten are the rows of the
16-bit command word (30_encoding.md R70 to R73), the other seventeen the micro-steps of the sequencer (R78). -/

namespace Sys2Proof

/-- A host command or a sequencer micro-step (00_scope.md R9). A reserved row that spans several operation codes carries
its OPC byte; WellFormed says which bytes belong to it. -/
inductive Instr where
  /-- INIT (40_host_commands.md R93); OPD is ignored. -/
  | init (opd : Byte)
  /-- CONV (40_host_commands.md R94) with its operand byte. -/
  | conv (opd : Byte)
  | reservedOpc00 (opd : Byte)
  | reservedOpc03 (opd : Byte)
  | reservedOpc04To07 (opc opd : Byte)
  | reservedOpc08To0F (opc opd : Byte)
  | reservedOpc10To1F (opc opd : Byte)
  | reservedOpc20To3F (opc opd : Byte)
  | reservedOpc40To7F (opc opd : Byte)
  | reservedOpc80ToFF (opc opd : Byte)
  | accept
  | chset0
  | chset1
  | dtpass
  | select
  | startRise
  | startFall
  | startSample
  | dataRiseFirst
  | dataFall
  | dataSample
  | dataRiseNext
  | stopRise
  | stopFall
  | stopSample
  | deselect
  | stamp
deriving DecidableEq, Repr

end Sys2Proof
end

