-- ==== Sys2Proof/WellFormed.lean ====
section
/-! DEFINITION. Which terms of Instr stand for words of the table: a reserved row holds an OPC byte of its own range. -/

namespace Sys2Proof

/-- The mask and match of a reserved row over the OPC byte (the high bytes of the table's mask and match, R73). -/
def opcIn (mask pattern opc : Byte) : Bool := opc &&& mask == pattern

/-- The well-formed instructions (30_encoding.md R73 and opcode_table.json). -/
def Instr.wellFormed : Instr → Bool
  | .init _ => true
  | .conv _ => true
  | .reservedOpc00 _ => true
  | .reservedOpc03 _ => true
  | .reservedOpc04To07 opc _ => opcIn 0xFC 0x04 opc
  | .reservedOpc08To0F opc _ => opcIn 0xF8 0x08 opc
  | .reservedOpc10To1F opc _ => opcIn 0xF0 0x10 opc
  | .reservedOpc20To3F opc _ => opcIn 0xE0 0x20 opc
  | .reservedOpc40To7F opc _ => opcIn 0xC0 0x40 opc
  | .reservedOpc80ToFF opc _ => opcIn 0x80 0x80 opc
  | .accept => true
  | .chset0 => true
  | .chset1 => true
  | .dtpass => true
  | .select => true
  | .startRise => true
  | .startFall => true
  | .startSample => true
  | .dataRiseFirst => true
  | .dataFall => true
  | .dataSample => true
  | .dataRiseNext => true
  | .stopRise => true
  | .stopFall => true
  | .stopSample => true
  | .deselect => true
  | .stamp => true

end Sys2Proof
end

