-- ==== Sys2Proof/Decode.lean ====
section
/-! DEFINITION. The decoder and the encoder: command words by the masks and matches of opcode_table.json, micro-steps by
the 5-bit state code and BITCNT (30_encoding.md R70 to R73, R78). -/

namespace Sys2Proof

/-- OPC, bits 15:8 (30_encoding.md R70). -/
def opcOf (w : CmdWord) : Byte := w.extractLsb' 8 8

/-- OPD, bits 7:0 (30_encoding.md R70). -/
def opdOf (w : CmdWord) : Byte := w.extractLsb' 0 8

/-- The format CMD16 (30_encoding.md R70). -/
def cmd16 (opc opd : Byte) : CmdWord := opc ++ opd

/-- The row a command word belongs to. The ten rows partition the 65536 words (30_encoding.md R71, R73), so the last row,
whose only fixed bit is bit 15, is what remains. -/
def decodeCommand (w : CmdWord) : Instr :=
  if w &&& 0xFF00 = 0x0100 then .init (opdOf w)
  else if w &&& 0xFF00 = 0x0200 then .conv (opdOf w)
  else if w &&& 0xFF00 = 0x0000 then .reservedOpc00 (opdOf w)
  else if w &&& 0xFF00 = 0x0300 then .reservedOpc03 (opdOf w)
  else if w &&& 0xFC00 = 0x0400 then .reservedOpc04To07 (opcOf w) (opdOf w)
  else if w &&& 0xF800 = 0x0800 then .reservedOpc08To0F (opcOf w) (opdOf w)
  else if w &&& 0xF000 = 0x1000 then .reservedOpc10To1F (opcOf w) (opdOf w)
  else if w &&& 0xE000 = 0x2000 then .reservedOpc20To3F (opcOf w) (opdOf w)
  else if w &&& 0xC000 = 0x4000 then .reservedOpc40To7F (opcOf w) (opdOf w)
  else .reservedOpc80ToFF (opcOf w) (opdOf w)

/-- Why a state code selects no micro-step (93_implementation_defined.md U12). -/
inductive Reject where
  /-- One of the sixteen 5-bit codes that are never held. -/
  | unusedStateCode (code : BitVec 5)
  /-- State (DATA_PULSE, 2) with BITCNT 9 to 15. -/
  | unusedBitCount (n : BitVec 4)
deriving DecidableEq, Repr

/-- The micro-step that leaves the state with code pppss (the table of 30_encoding.md R78). Two leave 10110: BITCNT tells
them apart (41_sequencer_phases.md R119, R122). -/
def decodeState (code : BitVec 5) (bitcnt : BitVec 4) : Except Reject Instr :=
  match code.toNat with
  | 0b00000 => .ok .accept
  | 0b00100 => .ok .chset0
  | 0b00101 => .ok .chset1
  | 0b01000 => .ok .dtpass
  | 0b01001 => .ok .select
  | 0b01100 => .ok .startRise
  | 0b10000 => .ok .startFall
  | 0b10001 => .ok .startSample
  | 0b10010 => .ok .dataRiseFirst
  | 0b10100 => .ok .dataFall
  | 0b10101 => .ok .dataSample
  | 0b10110 =>
    if bitcnt.toNat < Config.nData then .ok .dataRiseNext
    else if bitcnt.toNat = Config.nData then .ok .stopRise
    else .error (.unusedBitCount bitcnt)
  | 0b11000 => .ok .stopFall
  | 0b11001 => .ok .stopSample
  | 0b11010 => .ok .deselect
  | 0b11011 => .ok .stamp
  | _ => .error (.unusedStateCode code)

/-- What selects an instruction: a command word at the port, or the sequencer's state code with BITCNT. -/
inductive Encoding where
  | word (w : CmdWord)
  | state (code : BitVec 5) (bitcnt : BitVec 4)
deriving DecidableEq, Repr

/-- Decoding is total: an instruction, or a rejection by name. -/
def decode : Encoding → Except Reject Instr
  | .word w => .ok (decodeCommand w)
  | .state code bitcnt => decodeState code bitcnt

/-- The encoder, from the same tables. A micro-step that BITCNT does not select is given BITCNT 0. -/
def encode : Instr → Encoding
  | .init opd => .word (cmd16 0x01 opd)
  | .conv opd => .word (cmd16 0x02 opd)
  | .reservedOpc00 opd => .word (cmd16 0x00 opd)
  | .reservedOpc03 opd => .word (cmd16 0x03 opd)
  | .reservedOpc04To07 opc opd => .word (cmd16 opc opd)
  | .reservedOpc08To0F opc opd => .word (cmd16 opc opd)
  | .reservedOpc10To1F opc opd => .word (cmd16 opc opd)
  | .reservedOpc20To3F opc opd => .word (cmd16 opc opd)
  | .reservedOpc40To7F opc opd => .word (cmd16 opc opd)
  | .reservedOpc80ToFF opc opd => .word (cmd16 opc opd)
  | .accept => .state 0b00000 0
  | .chset0 => .state 0b00100 0
  | .chset1 => .state 0b00101 0
  | .dtpass => .state 0b01000 0
  | .select => .state 0b01001 0
  | .startRise => .state 0b01100 0
  | .startFall => .state 0b10000 0
  | .startSample => .state 0b10001 0
  | .dataRiseFirst => .state 0b10010 0
  | .dataFall => .state 0b10100 0
  | .dataSample => .state 0b10101 0
  | .dataRiseNext => .state 0b10110 0
  | .stopRise => .state 0b10110 8
  | .stopFall => .state 0b11000 0
  | .stopSample => .state 0b11001 0
  | .deselect => .state 0b11010 0
  | .stamp => .state 0b11011 0

/-- Is the instruction one of the eight reserved rows (30_encoding.md R73)? -/
def Instr.isReserved : Instr → Bool
  | .reservedOpc00 _ => true
  | .reservedOpc03 _ => true
  | .reservedOpc04To07 _ _ => true
  | .reservedOpc08To0F _ _ => true
  | .reservedOpc10To1F _ _ => true
  | .reservedOpc20To3F _ _ => true
  | .reservedOpc40To7F _ _ => true
  | .reservedOpc80ToFF _ _ => true
  | .init _ => false
  | .conv _ => false
  | .accept => false
  | .chset0 => false
  | .chset1 => false
  | .dtpass => false
  | .select => false
  | .startRise => false
  | .startFall => false
  | .startSample => false
  | .dataRiseFirst => false
  | .dataFall => false
  | .dataSample => false
  | .dataRiseNext => false
  | .stopRise => false
  | .stopFall => false
  | .stopSample => false
  | .deselect => false
  | .stamp => false

/-- The decoder as the host asks it: 16 bits are a command word, up to 8 bits a state code, whose bits above the fifth
must be 0 and which is read with BITCNT 0 (log entry 12). -/
def decodeTableWord (nbits w : Nat) : Option Instr :=
  if nbits = 16 then
    if w < 2 ^ 16 then some (decodeCommand (BitVec.ofNat 16 w)) else none
  else if nbits ≤ 8 then
    if w < 2 ^ 5 then (decodeState (BitVec.ofNat 5 w) 0).toOption else none
  else none

end Sys2Proof
end

