-- ==== Sys2Proof/Machine/Operands.lean ====
section
/-! DEFINITION. The one operand form, the channel number (30_encoding.md R72, R79; 42_datapath_primitives.md R141). -/

namespace Sys2Proof.Machine

/-- The two low bits of an operand byte; bits 7:2 are ignored (R72, R100). -/
def chanBits (opd : Byte) : BitVec 2 := opd.extractLsb' 0 2

/-- ChanDecode: the levels for C0 and C1 (R141, R79). -/
def chanDecode (v : Byte) : Bit × Bit := (v.extractLsb' 0 1, v.extractLsb' 1 1)

/-- The channel a CONV uses: FIXED_CHANNEL if set, else OPD[1:0] (40_host_commands.md R100). -/
def chanOf (c : Params) (opd : Byte) : BitVec 2 := c.fixedChannel.getD (chanBits opd)

/-- The level of C0 for a channel (R79). -/
def chanLevel0 (chan : BitVec 2) : Bit := chan.extractLsb' 0 1

/-- The level of C1 for a channel (R79). -/
def chanLevel1 (chan : BitVec 2) : Bit := chan.extractLsb' 1 1

end Sys2Proof.Machine
end

