-- ==== Sys2Proof/Machine/State.lean ====
section
/-! DEFINITION. The state of one engine instance (10_state.md R20), what stands around it (time, the host's port, the
environment's scripts, the observation), the reasons a step can stop, and the state right after reset (R33). -/

namespace Sys2Proof.Machine

/-- The engine raises nothing: the table of its exception causes is empty (60_exceptions.md R160). So no fault exists. -/
inductive Fault where
deriving DecidableEq, Repr

/-- Why the model has no step (60_exceptions.md R163). Every one is safe: the model says nothing of such a run. -/
inductive Refusal where
  /-- Raised by exec for an instruction that has no meaning yet. Safe. No arm raises it. -/
  | notModelled (mnemonic : String)
  /-- Raised when the host presents a reserved command word with this OPC (30_encoding.md R73, 40_host_commands.md R98).
  Safe. -/
  | reservedWord (opc : Byte)
  /-- Raised when the host presents a command while BUSY (R92, R163 (a)). Safe. -/
  | commandWhileBusy
  /-- Raised when the host presents CONV while Ready does not hold (R99, R163 (b)). Safe. -/
  | convBeforeInit
  /-- Raised by PinWrite to a pin that is absent, or is not an output (R52, R163 (d)). Safe. -/
  | writeToNonOutput (p : Pin)
  /-- Raised by PinRead of DIN when it is not an input with pull-up (R54, R163 (d)). Safe. -/
  | readOfNonInput
  /-- Raised by PinCfg of an absent pin, or with a mode that R51 does not need for that pin. Safe; no instruction does it. -/
  | pinCfgCombination (p : Pin) (m : PinMode)
  /-- Raised when BITCNT would reach, or holds, a value from 9 to 15 where it is used (93_implementation_defined.md U12).
  Safe; unreachable from reset. -/
  | unusedBitCount (n : BitVec 4)
  /-- Raised where the sequencer's state code selects no micro-step (U12). Safe; no state of SeqState has such a code. -/
  | unusedStateCode (code : BitVec 5)
deriving DecidableEq, Repr

/-- PHASE (10_state.md R27). -/
inductive Phase where
  | idle | channelSet | deadTimeWait | selectedSetup | startPulse | dataPulse | stopPulse
deriving DecidableEq, Repr

/-- The code of a phase (30_encoding.md R78). -/
def Phase.code : Phase → BitVec 3
  | .idle => 0
  | .channelSet => 1
  | .deadTimeWait => 2
  | .selectedSetup => 3
  | .startPulse => 4
  | .dataPulse => 5
  | .stopPulse => 6

/-- The sixteen states (PHASE, SUB) the engine rests in (10_state.md R27, 41_sequencer_phases.md R129). The digit in a
name is SUB. -/
inductive SeqState where
  | idle0
  | channelSet0 | channelSet1
  | deadTimeWait0 | deadTimeWait1
  | selectedSetup0
  | startPulse0 | startPulse1 | startPulse2
  | dataPulse0 | dataPulse1 | dataPulse2
  | stopPulse0 | stopPulse1 | stopPulse2 | stopPulse3
deriving DecidableEq, Repr

/-- PHASE of a state. -/
def SeqState.phase : SeqState → Phase
  | .idle0 => .idle
  | .channelSet0 => .channelSet
  | .channelSet1 => .channelSet
  | .deadTimeWait0 => .deadTimeWait
  | .deadTimeWait1 => .deadTimeWait
  | .selectedSetup0 => .selectedSetup
  | .startPulse0 => .startPulse
  | .startPulse1 => .startPulse
  | .startPulse2 => .startPulse
  | .dataPulse0 => .dataPulse
  | .dataPulse1 => .dataPulse
  | .dataPulse2 => .dataPulse
  | .stopPulse0 => .stopPulse
  | .stopPulse1 => .stopPulse
  | .stopPulse2 => .stopPulse
  | .stopPulse3 => .stopPulse

/-- SUB of a state. -/
def SeqState.sub : SeqState → BitVec 2
  | .idle0 => 0
  | .channelSet0 => 0
  | .channelSet1 => 1
  | .deadTimeWait0 => 0
  | .deadTimeWait1 => 1
  | .selectedSetup0 => 0
  | .startPulse0 => 0
  | .startPulse1 => 1
  | .startPulse2 => 2
  | .dataPulse0 => 0
  | .dataPulse1 => 1
  | .dataPulse2 => 2
  | .stopPulse0 => 0
  | .stopPulse1 => 1
  | .stopPulse2 => 2
  | .stopPulse3 => 3

/-- The 5-bit state code pppss (30_encoding.md R78). -/
def SeqState.code (q : SeqState) : BitVec 5 := q.phase.code ++ q.sub

/-- One event (00_scope.md section 6, the trace lines of 95_test_vectors.md): an entry of the trace. What of it an observer
sees is in Observation.lean. -/
inductive Event where
  /-- ACCEPT of a CONV word. -/
  | accept (w : CmdWord)
  /-- CFG p m. -/
  | cfg (p : Pin) (m : PinMode)
  /-- W p v. -/
  | write (p : Pin) (v : Bit)
  /-- R DIN v. -/
  | read (v : Bit)
  /-- DTPASS, the dead-time test that passes, with the value of NOW it read. -/
  | now (v : Nat)
  /-- STAMP, with the value of NOW it read and the byte its DONE pulse hands over. -/
  | stamp (v : Nat) (rsp : Byte)
  /-- The reset event. -/
  | reset
deriving DecidableEq, Repr

/-- A configuration (S, t) of 41_sequencer_phases.md R110 with what stands around the engine. The fields from `cfg` to
`tReady` are the engine's; the rest is the model's own and no register of the engine. -/
@[ext]
structure State where
  /-- The parameters (00_scope.md R6 to R8); no step changes them. -/
  cfg : Params
  /-- Output latches (10_state.md R21). `c0` and `c1` mean nothing when HAS_CHAN is false. -/
  cs : Bit
  clk : Bit
  c0 : Bit
  c1 : Bit
  /-- MODE[p] (R22). -/
  modeCs : PinMode
  modeClk : PinMode
  modeDin : PinMode
  modeC0 : PinMode
  modeC1 : PinMode
  /-- T_DESEL (R24), a W_T-bit value kept as a natural number below 2^W_T (log entry 2). -/
  tDesel : Nat
  /-- SHREG (R25). -/
  shreg : Byte
  /-- RESULT (R26). -/
  result : Byte
  /-- PHASE and SUB (R27). -/
  seq : SeqState
  /-- BITCNT (R27). -/
  bitcnt : BitVec 4
  /-- CHSEL (R28). -/
  chsel : BitVec 2
  /-- T_READY (R29), ideal time. -/
  tReady : Nat
  /-- Ideal time t in microseconds (20_memory.md R56). -/
  time : Nat
  /-- The command port: `some w` is cmd_valid with cmd_word w (30_encoding.md R75). -/
  cmd : Option CmdWord
  /-- The moves of the environment that are already settled, next one first. -/
  agenda : List Move
  /-- The levels the coming DIN reads find, next one first (the directive DIN of R81). -/
  dinScript : List Bit
  /-- The coming slacks beyond a lower bound, next one first. -/
  gaps : List Nat
  /-- How many moves, DIN reads, slacks and reset events there have been: the arguments of the free values. -/
  moveCount : Nat
  dinCount : Nat
  gapCount : Nat
  resetCount : Nat
  /-- The trace, oldest entry first, each with its ideal time (00_scope.md section 6). Log entry 17. -/
  trace : List (Nat × Event)
deriving DecidableEq, Repr

/-- The state right after reset with the default parameters (10_state.md R33, 70_reset_and_hazards.md R181). The latches,
SHREG, RESULT, BITCNT and CHSEL have no reset value in the spec: 0 here, DESIGN CHOICE, log entry 1. -/
def State.reset : State where
  cfg := Params.default
  cs := 0
  clk := 0
  c0 := 0
  c1 := 0
  modeCs := .unconfigured
  modeClk := .unconfigured
  modeDin := .unconfigured
  modeC0 := .unconfigured
  modeC1 := .unconfigured
  tDesel := Config.tSentinel
  shreg := 0
  result := 0
  seq := .idle0
  bitcnt := 0
  chsel := 0
  tReady := 0
  time := 0
  cmd := none
  agenda := []
  dinScript := []
  gaps := []
  moveCount := 0
  dinCount := 0
  gapCount := 0
  resetCount := 0
  trace := []

/-- The outcome of a meaning. -/
abbrev Result := Host.Outcome State Fault Refusal

end Sys2Proof.Machine
end

