-- ==== Sys2Proof/Machine/Ops.lean ====
section
/-! DEFINITION. The operations every meaning is made of: composing outcomes, the pin space (20_memory.md R50 to R54), time and
the hold (R56, R57), the datapath functions (42_datapath_primitives.md R140 to R144), waiting, and the reset event. The
engine has no memory and takes no exception (10_state.md R20, 60_exceptions.md R160), so there is no operation for either. -/

namespace Sys2Proof.Machine

/-- Do `f` after an operation that answers a next state. -/
def Result.andThen (r : Result) (f : State → Result) : Result :=
  match r with
  | .next s => f s
  | .fault e => .fault e
  | .refused e => .refused e

/-- Operations one after the other. -/
def runLines : List (State → Result) → State → Result
  | [], s => .next s
  | line :: rest, s => (line s).andThen (runLines rest)

/-! Time (20_memory.md R56) -/

/-- NOW(t) = t mod 2^W_T. -/
def nowAt (c : Params) (t : Nat) : Nat := t % 2 ^ c.wT

/-- Now(). -/
def State.now (s : State) : Nat := nowAt s.cfg s.time

/-- TIME PASSES: only `t` grows (41_sequencer_phases.md R127). -/
def State.pass (d : Nat) (s : State) : State := { s with time := s.time + d }

/-- An entry of the trace, at the current ideal time (R52). -/
def State.record (e : Event) (s : State) : State := { s with trace := s.trace ++ [(s.time, e)] }

/-! The environment's draws -/

/-- The `k`-th coming slack: scripted, else free (20_memory.md R57). -/
def State.gapAt (s : State) (k : Nat) : Nat := s.gaps.getD k (Config.freeGap (s.gapCount + k))

/-- The slack has been used. -/
def State.takeGap (s : State) : State := { s with gaps := s.gaps.tail, gapCount := s.gapCount + 1 }

/-- The level the `k`-th coming DIN read finds: scripted, else free (20_memory.md R55). -/
def State.dinAt (s : State) (k : Nat) : Bit := s.dinScript.getD k (Config.freeDin (s.dinCount + k))

/-- The DIN level has been read. -/
def State.takeDin (s : State) : State := { s with dinScript := s.dinScript.tail, dinCount := s.dinCount + 1 }

/-! The pin space -/

/-- MODE[p] (10_state.md R22). -/
def State.mode (s : State) : Pin → PinMode
  | .cs => s.modeCs
  | .clk => s.modeClk
  | .din => s.modeDin
  | .c0 => s.modeC0
  | .c1 => s.modeC1

/-- MODE[p] <- m. -/
def State.setMode (p : Pin) (m : PinMode) (s : State) : State :=
  match p with
  | .cs => { s with modeCs := m }
  | .clk => { s with modeClk := m }
  | .din => { s with modeDin := m }
  | .c0 => { s with modeC0 := m }
  | .c1 => { s with modeC1 := m }

/-- The output latch of p <- v. DIN has none (10_state.md R21). -/
def State.setLatch (p : Pin) (v : Bit) (s : State) : State :=
  match p with
  | .cs => { s with cs := v }
  | .clk => { s with clk := v }
  | .din => s
  | .c0 => { s with c0 := v }
  | .c1 => { s with c1 := v }

/-- The mode the engine needs for a pin: DIN is the input, the others are outputs (R51, R61). -/
def neededMode : Pin → PinMode
  | .cs => .output
  | .clk => .output
  | .din => .inputPullup
  | .c0 => .output
  | .c1 => .output

/-- PinCfg(p, m) (R51): sets MODE[p] and nothing else; any combination the engine does not need is refused. -/
def pinCfg (p : Pin) (m : PinMode) (s : State) : Result :=
  if s.cfg.hasPin p = true ∧ m = neededMode p then .next ((s.setMode p m).record (.cfg p m))
  else .refused (.pinCfgCombination p m)

/-- PinWrite(p, v) (R52): the latch takes v and a WRITE event is recorded; a pin that is no output is refused. -/
def pinWrite (p : Pin) (v : Bit) (s : State) : Result :=
  if s.cfg.hasPin p = true ∧ neededMode p = .output ∧ s.mode p = .output then
    .next ((s.setLatch p v).record (.write p v))
  else .refused (.writeToNonOutput p)

/-- PinRead(DIN) (R54, R55): the level is a draw; `use` is what the step does with it. -/
def pinRead (use : Bit → State → Result) (s : State) : Result :=
  if s.modeDin = .inputPullup then use (s.dinAt 0) (s.takeDin.record (.read (s.dinAt 0)))
  else .refused .readOfNonInput

/-- Ready (10_state.md R23): INIT has configured every pin. -/
def State.ready (s : State) : Bool :=
  s.modeDin = .inputPullup && s.modeCs = .output && s.modeClk = .output &&
    (!s.cfg.hasChan || (s.modeC0 = .output && s.modeC1 = .output))

/-! The datapath (42_datapath_primitives.md) -/

/-- ShiftIn(r, b) = {r[6:0], b} (R140). -/
def shiftIn (r : Byte) (b : Bit) : Byte := (r <<< 1) ||| b.setWidth 8

/-- Elapsed(now, last) = (now - last) mod 2^W_T (R142). -/
def elapsed (w now last : Nat) : BitVec w := BitVec.ofNat w now - BitVec.ofNat w last

/-- DeadTimeOk(now, last) (R142): an unsigned comparison with T_CSH. -/
def deadTimeOk (c : Params) (now last : Nat) : Bool := decide (c.tCsh ≤ (elapsed c.wT now last).toNat)

/-- How much longer the dead-time test fails: 0 where it passes (R102, R114). -/
def deadTimeLeft (c : Params) (now last : Nat) : Nat := c.tCsh - (elapsed c.wT now last).toNat

/-- The end of an event: Hold(d), with d = 0 where the event has no hold (R110, R143). -/
def State.endEvent (d : Nat) (s : State) : State := { s with tReady := s.time + d }

/-- PHASE <- P; SUB <- s. -/
def State.goto (q : SeqState) (s : State) : State := { s with seq := q }

/-! Waiting (20_memory.md R57, 41_sequencer_phases.md R127) -/

/-- Time passes for one slack, and nothing else happens: what an engine does whose micro-step is not enabled. -/
def State.idleAway (s : State) : State := (s.pass (s.gapAt 0)).takeGap

/-- Time passes until the pending hold is over, and for one slack more. -/
def State.awaitHold (s : State) : State := (s.pass (s.tReady - s.time)).idleAway

/-- The same, and then until the dead-time test passes (R102, R114). -/
def State.awaitDeadTime (s : State) : State :=
  s.awaitHold.pass (deadTimeLeft s.cfg s.awaitHold.now s.tDesel)

/-- Time passes until the micro-step that leaves the present state can fire. -/
def State.await (s : State) : State :=
  if s.seq = .deadTimeWait0 then s.awaitDeadTime else s.awaitHold

/-- When the micro-step that leaves the present state can fire at the earliest: the earliest schedule of 30_encoding.md R81
and the tables of 41_sequencer_phases.md. -/
def State.nextEventTime (s : State) : Nat :=
  let u := max s.time s.tReady
  if s.seq = .deadTimeWait0 then u + deadTimeLeft s.cfg (nowAt s.cfg u) s.tDesel else u

/-! Reset (70_reset_and_hazards.md R180) -/

/-- The reset event: every piece of engine state at its value of 10_state.md R33, no pin write, no DONE. Where R33 says
unspecified the value is free (log entry 9). Time, the parameters and the trace go on. DESIGN CHOICE, safe: the free value
of BITCNT is any of the sixteen 4-bit values, 9 to 15 among them, and is not refused until it would be used (log entry
27). -/
def State.resetEvent (s : State) : State :=
  { s.record .reset with
    cs := Config.freeResetLatch .cs s.resetCount
    clk := Config.freeResetLatch .clk s.resetCount
    c0 := Config.freeResetLatch .c0 s.resetCount
    c1 := Config.freeResetLatch .c1 s.resetCount
    modeCs := .unconfigured
    modeClk := .unconfigured
    modeDin := .unconfigured
    modeC0 := .unconfigured
    modeC1 := .unconfigured
    tDesel := Config.tSentinel
    shreg := Config.freeResetShreg s.resetCount
    result := Config.freeResetResult s.resetCount
    seq := .idle0
    bitcnt := Config.freeResetBitcnt s.resetCount
    chsel := Config.freeResetChsel s.resetCount
    tReady := 0
    cmd := none
    resetCount := s.resetCount + 1 }

end Sys2Proof.Machine
end

