-- ==== Sys2Proof/Machine/Flags.lean ====
section
/-! DEFINITION. Status and ports. The engine has no condition codes (10_state.md R30); BUSY and the output ports of
30_encoding.md R75 are functions of the state. -/

namespace Sys2Proof.Machine

/-- BUSY = (PHASE != IDLE) (R30). -/
def State.busy (s : State) : Bool := s.seq ≠ .idle0

/-- cmd_ready = not BUSY (R75). -/
def State.cmdReady (s : State) : Bool := !s.busy

/-- DONE with its byte (R30, R74): a pulse of the one event STAMP, an output of that event and no register. -/
def Event.response : Event → Option Byte
  | .stamp _ rsp => some rsp
  | .accept _ => none
  | .cfg _ _ => none
  | .write _ _ => none
  | .read _ => none
  | .now _ => none
  | .reset => none

/-- rsp_valid in an event: the DONE pulse (R30, R75). -/
def Event.rspValid (e : Event) : Bool := e.response.isSome

/-- rsp_data: RESULT (R74, R75). -/
def State.rspData (s : State) : Byte := s.result

/-- The output latch of a pin; DIN has none (10_state.md R21). -/
def State.latch (s : State) : Pin → Option Bit
  | .cs => some s.cs
  | .clk => some s.clk
  | .din => none
  | .c0 => if s.cfg.hasChan then some s.c0 else none
  | .c1 => if s.cfg.hasChan then some s.c1 else none

/-- oe[p] (R75), one per output pin: 1 iff MODE[p] = OUTPUT. DIN is no output pin. -/
def State.outputEnable (s : State) (p : Pin) : Bool :=
  s.cfg.hasPin p && neededMode p = .output && s.mode p = .output

/-- pu_din (R75): 1 iff MODE[DIN] = INPUT_PULLUP. -/
def State.pullUpDin (s : State) : Bool := s.modeDin = .inputPullup

/-- The level an outside observer sees on a pin (20_memory.md R53): the latch of a driven output, else a free value. -/
def State.wire (s : State) (p : Pin) : Bit :=
  if s.outputEnable p then (s.latch p).getD (Config.freeWire p s.time) else Config.freeWire p s.time

end Sys2Proof.Machine
end

