-- ==== Sys2Proof/Machine/Effects.lean ====
section
/-! DEFINITION. The events of one conversion: what each does to pins and registers, its hold included, and not which state
follows (40_host_commands.md R94, 41_sequencer_phases.md R111 to R126). CONV as one transition and the micro-steps are both
made of them. -/

namespace Sys2Proof.Machine

/-- Acceptance of CONV with operand byte `opd` (R111): CHSEL takes the channel where there are channel pins. -/
def acceptEffect (opd : Byte) (s : State) : Result :=
  let t := s.record (.accept (cmd16 0x02 opd))
  .next (({ t with
    chsel := if s.cfg.hasChan then chanOf s.cfg opd else s.chsel
    cmd := none }).endEvent 0)

/-- The write of C0 (R112, R94 line 1a). -/
def chset0Effect (s : State) : Result :=
  (pinWrite .c0 (chanLevel0 s.chsel) s).andThen fun t => .next (t.endEvent 0)

/-- The write of C1, with the hold T_CH_SETUP (R113, R94 line 1b). -/
def chset1Effect (s : State) : Result :=
  (pinWrite .c1 (chanLevel1 s.chsel) s).andThen fun t => .next (t.endEvent t.cfg.tChSetup)

/-- The passing dead-time test reads the time base and does nothing else (R114, R94 line 2). -/
def dtpassEffect (s : State) : Result := .next ((s.record (.now s.now)).endEvent 0)

/-- CS falls, SHREG and BITCNT are cleared, T_CSS is held (R115, R94 line 3). -/
def selectEffect (s : State) : Result :=
  (pinWrite .cs low s).andThen fun t => .next (({ t with shreg := 0, bitcnt := 0 }).endEvent t.cfg.tCss)

/-- CLK rises and T_CKH is held (R116, R119, R122). -/
def riseEffect (s : State) : Result :=
  (pinWrite .clk high s).andThen fun t => .next (t.endEvent t.cfg.tCkh)

/-- CLK falls; no hold (R117, R120, R123). -/
def fallEffect (s : State) : Result :=
  (pinWrite .clk low s).andThen fun t => .next (t.endEvent 0)

/-- The start pulse's sample is read and discarded, T_CKL is held (R118). -/
def startSampleEffect (s : State) : Result :=
  pinRead (fun _ t => .next (t.endEvent t.cfg.tCkl)) s

/-- A data sample is shifted into SHREG and counted, T_CKL is held (R121, R140, R144). A ninth one would take BITCNT to a
value that is never held (93_implementation_defined.md U12). -/
def dataSampleEffect (s : State) : Result :=
  if s.bitcnt.toNat < Config.nData then
    pinRead (fun b t =>
      .next (({ t with shreg := shiftIn t.shreg b, bitcnt := t.bitcnt + 1 }).endEvent t.cfg.tCkl)) s
  else .refused (.unusedBitCount (s.bitcnt + 1))

/-- The stop pulse's sample is read and discarded; no hold (R124). -/
def stopSampleEffect (s : State) : Result :=
  pinRead (fun _ t => .next (t.endEvent 0)) s

/-- CS rises (R125). -/
def deselectEffect (s : State) : Result :=
  (pinWrite .cs high s).andThen fun t => .next (t.endEvent 0)

/-- T_DESEL <- NOW, RESULT <- SHREG (R126, R94 lines 7 and 8, R101). DONE is the event itself (10_state.md R30). -/
def stampEffect (s : State) : Result :=
  .next (({ s.record (.stamp s.now s.shreg) with tDesel := s.now, result := s.shreg }).endEvent 0)

end Sys2Proof.Machine
end

