-- ==== Sys2Proof/Machine/HostCommands.lean ====
section
/-! DEFINITION. The host commands INIT and CONV, each as one transition from acceptance to completion
(40_host_commands.md R93, R94). -/

namespace Sys2Proof.Machine

/-- The events of INIT, in order (R93). -/
def initLines (c : Params) : List (State → Result) :=
  [pinCfg .din .inputPullup, pinCfg .cs .output, pinCfg .clk .output, pinWrite .cs high, pinWrite .clk low] ++
    (if c.hasChan then [pinCfg .c0 .output, pinCfg .c1 .output] else [])

/-- INIT (R93): its events all at the acceptance time; PHASE stays IDLE; OPD is ignored. The host's word leaves the port.
While BUSY it is refused (R92). -/
def execInit (_opd : Byte) (s : State) : Result :=
  if s.busy then .refused .commandWhileBusy
  else runLines (initLines s.cfg) { s with cmd := none }

/-- One line of CONV: time passes until the hold of the line before is over, and as much longer as the environment wants;
then the event (R97). -/
def afterHold (effect : State → Result) (s : State) : Result := effect s.awaitHold

/-- The dead-time wait of line 2 (R94, R102). -/
def afterDeadTime (effect : State → Result) (s : State) : Result := effect s.awaitDeadTime

/-- The pseudocode of CONV after its acceptance, line by line (R94). -/
def convLines (c : Params) : List (State → Result) :=
  (if c.hasChan then [afterHold chset0Effect, afterHold chset1Effect] else []) ++
  [afterDeadTime dtpassEffect, afterHold selectEffect] ++
  [afterHold riseEffect, afterHold fallEffect, afterHold startSampleEffect] ++
  (List.replicate Config.nData [afterHold riseEffect, afterHold fallEffect, afterHold dataSampleEffect]).flatten ++
  [afterHold riseEffect, afterHold fallEffect, afterHold stopSampleEffect] ++
  [afterHold deselectEffect, afterHold stampEffect]

/-- CONV as one transition (R94): accepted now, every later event at a time R97 allows, back in (IDLE, 0) at its end.
Refused while BUSY (R92) and before INIT (R99); with a hold pending only time passes (R110). -/
def execConv (opd : Byte) (s : State) : Result :=
  if s.busy then .refused .commandWhileBusy
  else if s.ready then
    if s.tReady ≤ s.time then (acceptEffect opd s).andThen (runLines (convLines s.cfg))
    else .next s.idleAway
  else .refused .convBeforeInit

end Sys2Proof.Machine
end

