-- ==== Sys2Proof/Machine/Reserved.lean ====
section
/-! DEFINITION. The eight reserved rows of the command word: never accepted, refused (30_encoding.md R73,
40_host_commands.md R98, 60_exceptions.md R163 (c)). -/

namespace Sys2Proof.Machine

/-- A reserved command word with operation code `opc` is refused (R73, R98). -/
def refuseReserved (opc : Byte) (_s : State) : Result := .refused (.reservedWord opc)

/-- OPC 0x00. -/
def execReservedOpc00 (_opd : Byte) (s : State) : Result := refuseReserved 0x00 s

/-- OPC 0x03. -/
def execReservedOpc03 (_opd : Byte) (s : State) : Result := refuseReserved 0x03 s

/-- OPC 0x04 to 0x07. -/
def execReservedOpc04To07 (opc _opd : Byte) (s : State) : Result := refuseReserved opc s

/-- OPC 0x08 to 0x0F. -/
def execReservedOpc08To0F (opc _opd : Byte) (s : State) : Result := refuseReserved opc s

/-- OPC 0x10 to 0x1F. -/
def execReservedOpc10To1F (opc _opd : Byte) (s : State) : Result := refuseReserved opc s

/-- OPC 0x20 to 0x3F. -/
def execReservedOpc20To3F (opc _opd : Byte) (s : State) : Result := refuseReserved opc s

/-- OPC 0x40 to 0x7F. -/
def execReservedOpc40To7F (opc _opd : Byte) (s : State) : Result := refuseReserved opc s

/-- OPC 0x80 to 0xFF. -/
def execReservedOpc80ToFF (opc _opd : Byte) (s : State) : Result := refuseReserved opc s

end Sys2Proof.Machine
end

