-- ==== Sys2Proof/Machine/Sequencer.lean ====
section
/-! DEFINITION. The micro-steps of the sequencer, one definition per row (41_sequencer_phases.md R110 to R126). -/

namespace Sys2Proof.Machine

/-- A micro-step (R110): enabled in its from-state once the hold is over and its own guard holds; then its effect, and its
next state. Where it is not enabled the event does not happen and only time passes (R127). -/
def microStep (fromState : SeqState) (guard : Bool) (effect : State → Result) (next : SeqState) (s : State) : Result :=
  if s.seq = fromState ∧ s.tReady ≤ s.time ∧ guard = true then (effect s).andThen fun t => .next (t.goto next)
  else .next s.idleAway

/-- The operand byte of the CONV word at the command port, if one is presented (R111). -/
def convOperand (s : State) : Option Byte :=
  match s.cmd with
  | none => none
  | some w => if opcOf w = 0x02 then some (opdOf w) else none

/-- ACCEPT (R111): a CONV word at the port is taken in (IDLE, 0); before INIT it is refused (R99). -/
def execAccept (s : State) : Result :=
  match convOperand s with
  | none => .next s.idleAway
  | some opd =>
    if s.seq = .idle0 ∧ s.ready = false then .refused .convBeforeInit
    else microStep .idle0 true (acceptEffect opd) (if s.cfg.hasChan then .channelSet0 else .deadTimeWait0) s

/-- CHSET0 (R112). -/
def execChset0 (s : State) : Result := microStep .channelSet0 true chset0Effect .channelSet1 s

/-- CHSET1 (R113). -/
def execChset1 (s : State) : Result := microStep .channelSet1 true chset1Effect .deadTimeWait0 s

/-- DTPASS (R114): the dead-time test is its guard. -/
def execDtpass (s : State) : Result :=
  microStep .deadTimeWait0 (deadTimeOk s.cfg s.now s.tDesel) dtpassEffect .deadTimeWait1 s

/-- SELECT (R115). -/
def execSelect (s : State) : Result := microStep .deadTimeWait1 true selectEffect .selectedSetup0 s

/-- START_RISE (R116). -/
def execStartRise (s : State) : Result := microStep .selectedSetup0 true riseEffect .startPulse0 s

/-- START_FALL (R117). -/
def execStartFall (s : State) : Result := microStep .startPulse0 true fallEffect .startPulse1 s

/-- START_SAMPLE (R118). -/
def execStartSample (s : State) : Result := microStep .startPulse1 true startSampleEffect .startPulse2 s

/-- DATA_RISE from (START_PULSE, 2) (R119). -/
def execDataRiseFirst (s : State) : Result := microStep .startPulse2 true riseEffect .dataPulse0 s

/-- DATA_FALL (R120). -/
def execDataFall (s : State) : Result := microStep .dataPulse0 true fallEffect .dataPulse1 s

/-- DATA_SAMPLE (R121). -/
def execDataSample (s : State) : Result := microStep .dataPulse1 true dataSampleEffect .dataPulse2 s

/-- DATA_RISE from (DATA_PULSE, 2), when BITCNT < 8 (R119). -/
def execDataRiseNext (s : State) : Result :=
  microStep .dataPulse2 (decide (s.bitcnt.toNat < Config.nData)) riseEffect .dataPulse0 s

/-- STOP_RISE, when BITCNT = 8 (R122). -/
def execStopRise (s : State) : Result :=
  microStep .dataPulse2 (decide (s.bitcnt.toNat = Config.nData)) riseEffect .stopPulse0 s

/-- STOP_FALL (R123). -/
def execStopFall (s : State) : Result := microStep .stopPulse0 true fallEffect .stopPulse1 s

/-- STOP_SAMPLE (R124). -/
def execStopSample (s : State) : Result := microStep .stopPulse1 true stopSampleEffect .stopPulse2 s

/-- DESELECT (R125). -/
def execDeselect (s : State) : Result := microStep .stopPulse2 true deselectEffect .stopPulse3 s

/-- STAMP (R126). -/
def execStamp (s : State) : Result := microStep .stopPulse3 true stampEffect .idle0 s

end Sys2Proof.Machine
end

