-- ==== Sys2Proof/Machine/Dispatch.lean ====
section
/-! DEFINITION. One arm per constructor of Instr. -/

namespace Sys2Proof.Machine

def exec (i : Instr) (s : State) : Host.Outcome State Fault Refusal :=
  match i with
  | .init opd => Sys2Proof.Machine.execInit opd s
  | .conv opd => Sys2Proof.Machine.execConv opd s
  | .reservedOpc00 opd => Sys2Proof.Machine.execReservedOpc00 opd s
  | .reservedOpc03 opd => Sys2Proof.Machine.execReservedOpc03 opd s
  | .reservedOpc04To07 opc opd => Sys2Proof.Machine.execReservedOpc04To07 opc opd s
  | .reservedOpc08To0F opc opd => Sys2Proof.Machine.execReservedOpc08To0F opc opd s
  | .reservedOpc10To1F opc opd => Sys2Proof.Machine.execReservedOpc10To1F opc opd s
  | .reservedOpc20To3F opc opd => Sys2Proof.Machine.execReservedOpc20To3F opc opd s
  | .reservedOpc40To7F opc opd => Sys2Proof.Machine.execReservedOpc40To7F opc opd s
  | .reservedOpc80ToFF opc opd => Sys2Proof.Machine.execReservedOpc80ToFF opc opd s
  | .accept => Sys2Proof.Machine.execAccept s
  | .chset0 => Sys2Proof.Machine.execChset0 s
  | .chset1 => Sys2Proof.Machine.execChset1 s
  | .dtpass => Sys2Proof.Machine.execDtpass s
  | .select => Sys2Proof.Machine.execSelect s
  | .startRise => Sys2Proof.Machine.execStartRise s
  | .startFall => Sys2Proof.Machine.execStartFall s
  | .startSample => Sys2Proof.Machine.execStartSample s
  | .dataRiseFirst => Sys2Proof.Machine.execDataRiseFirst s
  | .dataFall => Sys2Proof.Machine.execDataFall s
  | .dataSample => Sys2Proof.Machine.execDataSample s
  | .dataRiseNext => Sys2Proof.Machine.execDataRiseNext s
  | .stopRise => Sys2Proof.Machine.execStopRise s
  | .stopFall => Sys2Proof.Machine.execStopFall s
  | .stopSample => Sys2Proof.Machine.execStopSample s
  | .deselect => Sys2Proof.Machine.execDeselect s
  | .stamp => Sys2Proof.Machine.execStamp s

end Sys2Proof.Machine
end

