-- ==== Sys2Proof/Machine/Fetch.lean ====
section
/-! DEFINITION. What the next step is: the environment's next move, and the instruction it selects. A host command comes
from the command port (40_host_commands.md R91), a micro-step from the sequencer state (41_sequencer_phases.md R128). -/

namespace Sys2Proof.Machine

/-- What a move comes to: an instruction to run in a state, a state, or no step. -/
inductive Fetched where
  | run (i : Instr) (s : State)
  | became (s : State)
  | stop (r : Refusal)
deriving DecidableEq, Repr

/-- The environment's next move: the agenda's, else a free one (R91, R104, R127). -/
def State.nextMove (s : State) : Move := s.agenda.headD (Config.freeMove s.moveCount)

/-- The move has been made. -/
def State.takeMove (s : State) : State := { s with agenda := s.agenda.tail, moveCount := s.moveCount + 1 }

/-- The refusal a rejected state code comes to (93_implementation_defined.md U12). -/
def rejectedCode : Reject → Refusal
  | .unusedStateCode code => .unusedStateCode code
  | .unusedBitCount n => .unusedBitCount n

/-- The instruction that takes a presented word event by event: ACCEPT for a CONV (R111); INIT is one transition anyway
(R93), and a reserved word is refused (R98). -/
def eventForm (i : Instr) : Instr :=
  match i with
  | .conv _ => .accept
  | other => other

/-- The micro-step the sequencer state selects (R128). -/
def fetchMicroStep (s : State) : Fetched :=
  match decodeState s.seq.code s.bitcnt with
  | .ok i => .run i s
  | .error e => .stop (rejectedCode e)

/-- What a move comes to in a state. -/
def fetchMove (m : Move) (s : State) : Fetched :=
  match m with
  | .pass d => .became (s.pass d)
  | .passUntil t => .became (s.pass (t - s.time))
  | .await => .became s.await
  | .go => fetchMicroStep s
  | .present w => if s.busy then .stop .commandWhileBusy else .run (eventForm (decodeCommand w)) { s with cmd := some w }
  | .call w => .run (decodeCommand w) { s with cmd := some w }
  | .reset => .became s.resetEvent

/-- The next move and what it comes to. -/
def fetch (s : State) : Fetched := fetchMove s.nextMove s.takeMove

/-- The state with a 5-bit code, if the code is used (30_encoding.md R78). -/
def seqOfCode (code : BitVec 5) : Option SeqState :=
  match code.toNat with
  | 0b00000 => some .idle0
  | 0b00100 => some .channelSet0
  | 0b00101 => some .channelSet1
  | 0b01000 => some .deadTimeWait0
  | 0b01001 => some .deadTimeWait1
  | 0b01100 => some .selectedSetup0
  | 0b10000 => some .startPulse0
  | 0b10001 => some .startPulse1
  | 0b10010 => some .startPulse2
  | 0b10100 => some .dataPulse0
  | 0b10101 => some .dataPulse1
  | 0b10110 => some .dataPulse2
  | 0b11000 => some .stopPulse0
  | 0b11001 => some .stopPulse1
  | 0b11010 => some .stopPulse2
  | 0b11011 => some .stopPulse3
  | _ => none

/-- The pins as every INIT leaves them (40_host_commands.md R93): what any state outside IDLE goes with (R99). -/
def State.configured (s : State) : State :=
  { s with
    modeDin := .inputPullup
    modeCs := .output
    modeClk := .output
    modeC0 := if s.cfg.hasChan then .output else s.modeC0
    modeC1 := if s.cfg.hasChan then .output else s.modeC1 }

/-- The state in which the next step runs the micro-step of a state code: the sequencer rests there, with the pins
configured if that is outside IDLE; BITCNT is 0 where it decides, and ACCEPT finds the word CONV 0 at the port (log entry
12). -/
def State.placeMicroStep (code : BitVec 5) (s : State) : State :=
  let q := (seqOfCode code).getD .idle0
  let t := if q = .idle0 then s else s.configured
  { t with
    seq := q
    bitcnt := if q = .dataPulse2 then 0 else s.bitcnt
    cmd := if q = .idle0 then some 0x0200 else s.cmd
    agenda := .go :: s.agenda }

/-- The state in which the next step takes a command word as one transition. -/
def State.placeCommand (w : CmdWord) (s : State) : State := { s with agenda := .call w :: s.agenda }

end Sys2Proof.Machine
end

