-- ==== Sys2Proof/Machine/Step.lean ====
section
/-! DEFINITION. One step of the machine: the next move of the environment, and the instruction it selects. -/

namespace Sys2Proof.Machine

/-- One transition of a configuration (41_sequencer_phases.md R110): time passes, the engine takes an event, the host
presents a command, or reset. -/
def step (s : State) : Host.Outcome State Fault Refusal :=
  match fetch s with
  | .run i t => exec i t
  | .became t => .next t
  | .stop r => .refused r

/-- `s` with an instruction of the table where the next step finds it: a 16-bit word as the host's next call, a shorter
one as the sequencer's state code. -/
def State.withFetchWord (s : State) (nbits w : Nat) : State :=
  if nbits = 16 then s.placeCommand (BitVec.ofNat 16 w) else s.placeMicroStep (BitVec.ofNat 5 w)

end Sys2Proof.Machine
end

