-- ==== Sys2Proof/Machine/Observation.lean ====
section
/-! DEFINITION. What an observer outside the engine sees of a run (40_host_commands.md R105): the pin events, the responses,
and cmd_ready, each with its ideal time. The values of NOW, the accepted word and the levels that DIN reads find are not in it. -/

namespace Sys2Proof.Machine

/-- Who looks. R105 (a) gives the instants of the DIN reads to the data source alone. -/
inductive Observer where
  | outside
  | dataSource
deriving DecidableEq, Repr

/-- A pin event as it is seen (R105 (a)). A DIN read is seen as an instant, without its level. -/
inductive Seen where
  | cfg (p : Pin) (m : PinMode)
  | write (p : Pin) (v : Bit)
  | read
deriving DecidableEq, Repr

/-- What an observer sees of an event on the pins. -/
def Event.seen (o : Observer) : Event → Option Seen
  | .accept _ => none
  | .cfg p m => some (.cfg p m)
  | .write p v => some (.write p v)
  | .read _ => if o = .dataSource then some .read else none
  | .now _ => none
  | .stamp _ _ => none
  | .reset => none

/-- The level of cmd_ready after an event that begins or ends BUSY: ACCEPT begins it, STAMP and reset leave IDLE
(10_state.md R30, 41_sequencer_phases.md R111, R126, 70_reset_and_hazards.md R181). A reset in IDLE changes no level. -/
def Event.cmdReady : Event → Option Bool
  | .accept _ => some false
  | .stamp _ _ => some true
  | .reset => some true
  | .cfg _ _ => none
  | .write _ _ => none
  | .read _ => none
  | .now _ => none

/-- What `f` shows of the events of a trace, with their times. -/
def shownBy {α : Type} (f : Event → Option α) (trace : List (Nat × Event)) : List (Nat × α) :=
  trace.filterMap fun e => (f e.2).map fun x => (e.1, x)

/-- The pin events in order, each with its time (R105 (a)). -/
def pinEvents (o : Observer) (trace : List (Nat × Event)) : List (Nat × Seen) := shownBy (Event.seen o) trace

/-- Each DONE with its rsp_data, in order (R105 (b)). -/
def responses (trace : List (Nat × Event)) : List (Nat × Byte) := shownBy Event.response trace

/-- The changes in a list of timed levels, the level before it being `level`: an entry that repeats the level is none. -/
def changesFrom (level : Bool) : List (Nat × Bool) → List (Nat × Bool)
  | [] => []
  | e :: rest => if e.2 = level then changesFrom level rest else e :: changesFrom e.2 rest

/-- The times at which cmd_ready changes, with its level from there on (R105 (c)). Before the first one the engine is in
IDLE, so cmd_ready is 1. -/
def cmdReadyChanges (trace : List (Nat × Event)) : List (Nat × Bool) := changesFrom true (shownBy Event.cmdReady trace)

/-- The level after the last change. -/
def lastReady (changes : List (Nat × Bool)) : Bool := (changes.map Prod.snd).getLastD true

/-- cmd_ready at the instant `u`, after the events of that instant (R105 (c)). -/
def cmdReadyAt (trace : List (Nat × Event)) (u : Nat) : Bool :=
  lastReady ((cmdReadyChanges trace).filter fun e => e.1 ≤ u)

/-- The observation (R105). -/
structure Observation where
  pins : List (Nat × Seen)
  responses : List (Nat × Byte)
  cmdReady : List (Nat × Bool)
deriving DecidableEq, Repr

/-- What an observer has seen of the run so far. -/
def State.observation (o : Observer) (s : State) : Observation where
  pins := pinEvents o s.trace
  responses := responses s.trace
  cmdReady := cmdReadyChanges s.trace

end Sys2Proof.Machine
end

