-- ==== Sys2Proof/Machine/Run.lean ====
section
/-! DEFINITION. Runs of the machine, and the end of a run of a finite command stream (40_host_commands.md R106). -/

namespace Sys2Proof.Machine

/-- `n` steps, stopping at the first refusal. -/
def steps : Nat → State → Result
  | 0, s => .next s
  | n + 1, s => Result.andThen (step s) (steps n)

/-- The command word a move presents. -/
def Move.command : Move → Option CmdWord
  | .present w => some w
  | .call w => some w
  | .pass _ => none
  | .passUntil _ => none
  | .await => none
  | .go => none
  | .reset => none

/-- The commands that are still to be presented: what is left of the command stream. -/
def State.stream (s : State) : List CmdWord := s.agenda.filterMap Move.command

/-- Every command of the stream has been accepted and completed: none is left, none stands at the port, and the engine is in
(IDLE, 0) (R106). -/
def State.isOver (s : State) : Bool := s.seq = .idle0 && s.cmd.isNone && s.stream.isEmpty

/-- The next move is a reset that abandons a command (R106, 70_reset_and_hazards.md R180). -/
def State.abandons (s : State) : Bool := s.nextMove = .reset && (s.busy || s.cmd.isSome)

/-- The FINAL STATE, if the run is over within `n` steps: the first configuration in which it is over. A run that is refused
has none, and none that abandons a command (R104, R106). -/
def finalState : Nat → State → Option State
  | 0, s => if s.isOver then some s else none
  | n + 1, s =>
    if s.isOver then some s
    else if s.abandons then none
    else
      match step s with
      | .next t => finalState n t
      | .fault _ => none
      | .refused _ => none

/-- `f` is the final state of the run from `s` (R106). -/
def State.EndsIn (s f : State) : Prop := ∃ n, finalState n s = some f

/-- The engine rests for ever in one busy state (R106, 60_exceptions.md R174). -/
def State.RestsBusy (s : State) : Prop := s.busy = true ∧ ∀ n, ∃ t, steps n s = .next t ∧ t.seq = s.seq

/-- The run from `s` is a HANG: it comes to rest for ever in a busy state (R106). -/
def State.Hangs (s : State) : Prop := ∃ n t, steps n s = .next t ∧ t.RestsBusy

end Sys2Proof.Machine
end

