-- ==== Sys2Proof/Machine/Script.lean ====
section
/-! DEFINITION. The textual form (30_encoding.md R81): command texts, and what a test script does, as a run of the machine. -/

namespace Sys2Proof.Machine

/-- A command text. -/
inductive Asm where
  | init
  /-- `CONV n`, n in 0 to 255. -/
  | conv (n : Byte)
  /-- `CONV` without operand, the only pseudo-instruction. -/
  | convPlain
deriving DecidableEq, Repr

/-- The word of a command text (R81). -/
def assemble : Asm → CmdWord
  | .init => 0x0100
  | .conv n => 0x0200 + n.setWidth 16
  | .convPlain => 0x0200

/-- A line of a test script. -/
inductive Directive where
  | cmd (a : Asm)
  /-- `RESET`. -/
  | reset
  /-- `AT t`. -/
  | atTime (t : Nat)
  /-- `DIN b0 b1 … b9`: the ten levels s, d0 to d7, p, no more and no fewer (R81). A line of another length is not
  representable (log entry 26). -/
  | din (levels : Vector Bit 10)
  /-- `.word w`. -/
  | word (w : CmdWord)
deriving DecidableEq, Repr

/-- Why a script is no run. -/
inductive ScriptStop where
  /-- A step was refused (60_exceptions.md R163). -/
  | refused (r : Refusal)
  /-- `AT t` at a time that is past: time does not go back (20_memory.md R56). -/
  | timeIsPast (t : Nat)
deriving DecidableEq, Repr

/-- How a script comes out. -/
abbrev ScriptResult := Except ScriptStop State

/-- One step of the machine, the move being `m`. -/
def stepWith (m : Move) (s : State) : ScriptResult :=
  match step { s with agenda := [m] } with
  | .next t => .ok t
  | .refused r => .error (.refused r)

/-- The engine's next event, as early as its guard allows (R81 `AT`). -/
def earliestEvent (s : State) : ScriptResult := (stepWith (.passUntil s.nextEventTime) s).bind (stepWith .go)

/-- At most `fuel` events of the conversion in progress, each as early as its guard allows, those that can come by time
`until?`; with `none`, all. -/
def earliestEvents (until? : Option Nat) : Nat → State → ScriptResult
  | 0, s => .ok s
  | fuel + 1, s =>
    if s.busy && until?.all fun t => s.nextEventTime ≤ t then
      (earliestEvent s).bind (earliestEvents until? fuel)
    else .ok s

/-- No conversion has more events after ACCEPT (41_sequencer_phases.md R131). -/
def maxEvents : Nat := 36

/-- A test script in progress: the machine, and the DIN levels set aside for the next conversion. -/
structure Bench where
  machine : State
  levels : List Bit
deriving DecidableEq, Repr

/-- The host presents a word now. A CONV takes the levels that were set aside for it, and none of another conversion. -/
def Bench.present (b : Bench) (w : CmdWord) : Except ScriptStop Bench :=
  if opcOf w = 0x02 then
    (stepWith (.present w) { b.machine with dinScript := b.levels }).map fun s => { machine := s, levels := [] }
  else (stepWith (.present w) b.machine).map fun s => { b with machine := s }

/-- The host waits until time `t`, while the engine goes on with the conversion in progress. -/
def Bench.waitUntil (b : Bench) (t : Nat) : Except ScriptStop Bench :=
  if t < b.machine.time then .error (.timeIsPast t)
  else
    ((earliestEvents (some t) maxEvents b.machine).bind (stepWith (.passUntil t))).map fun s => { b with machine := s }

/-- What a line does (R81). DESIGN CHOICE, safe: of two DIN lines before one CONV the later replaces the earlier (log entry
26). -/
def Bench.line (b : Bench) : Directive → Except ScriptStop Bench
  | .cmd a => b.present (assemble a)
  | .word w => b.present w
  | .reset => (stepWith .reset b.machine).map fun s => { b with machine := s }
  | .atTime t => b.waitUntil t
  | .din levels => .ok { b with levels := levels.toList }

/-- A script, line by line; after the last line the conversion in progress is completed. -/
def Bench.run (b : Bench) : List Directive → ScriptResult
  | [] => earliestEvents none maxEvents b.machine
  | d :: rest => (b.line d).bind fun c => c.run rest

/-- A script run from a state. -/
def State.runScript (s : State) (script : List Directive) : ScriptResult :=
  Bench.run { machine := s, levels := [] } script

/-- An instance right after its creation with parameters `c` (70_reset_and_hazards.md R180). -/
def State.created (c : Params) : State := { State.reset with cfg := c }

end Sys2Proof.Machine
end

