-- ==== Sys2Proof/Safety.lean ====
section
/-! DEFINITION. What the statements are about: the lines' levels in each state, the invariants, the sequencer's order, parts
of a trace, and the moves of a conversion. -/

namespace Sys2Proof.Machine

/-- The level of CS in each resting state after INIT (10_state.md R31, the table of 41_sequencer_phases.md R129). -/
def csLevel : SeqState → Bit
  | .idle0 => high
  | .channelSet0 => high
  | .channelSet1 => high
  | .deadTimeWait0 => high
  | .deadTimeWait1 => high
  | .selectedSetup0 => low
  | .startPulse0 => low
  | .startPulse1 => low
  | .startPulse2 => low
  | .dataPulse0 => low
  | .dataPulse1 => low
  | .dataPulse2 => low
  | .stopPulse0 => low
  | .stopPulse1 => low
  | .stopPulse2 => low
  | .stopPulse3 => high

/-- The level of CLK in each resting state after INIT (the table of R129). -/
def clkLevel : SeqState → Bit
  | .idle0 => low
  | .channelSet0 => low
  | .channelSet1 => low
  | .deadTimeWait0 => low
  | .deadTimeWait1 => low
  | .selectedSetup0 => low
  | .startPulse0 => high
  | .startPulse1 => low
  | .startPulse2 => low
  | .dataPulse0 => high
  | .dataPulse1 => low
  | .dataPulse2 => low
  | .stopPulse0 => high
  | .stopPulse1 => low
  | .stopPulse2 => low
  | .stopPulse3 => low

/-- The values BITCNT takes in each state (10_state.md R27, 42_datapath_primitives.md R144): from SELECT to the stop pulse
it counts the data bits already in; elsewhere it means nothing. -/
def bitcntFits (q : SeqState) (k : BitVec 4) : Bool :=
  match q with
  | .idle0 => true
  | .channelSet0 => true
  | .channelSet1 => true
  | .deadTimeWait0 => true
  | .deadTimeWait1 => true
  | .selectedSetup0 => k.toNat = 0
  | .startPulse0 => k.toNat = 0
  | .startPulse1 => k.toNat = 0
  | .startPulse2 => k.toNat = 0
  | .dataPulse0 => k.toNat < Config.nData
  | .dataPulse1 => k.toNat < Config.nData
  | .dataPulse2 => 0 < k.toNat && k.toNat ≤ Config.nData
  | .stopPulse0 => k.toNat = Config.nData
  | .stopPulse1 => k.toNat = Config.nData
  | .stopPulse2 => k.toNat = Config.nData
  | .stopPulse3 => k.toNat = Config.nData

/-- The invariant of the engine: T_DESEL is a W_T-bit value (10_state.md R24); a conversion runs only with the pins
configured (40_host_commands.md R99); once they are, CS and CLK have the levels of the present state (R31); BITCNT is in
range; the channel states occur only where there are channel pins (41_sequencer_phases.md R111); no hold is pending in IDLE
(40_host_commands.md R106). -/
structure State.Inv (s : State) : Prop where
  tDesel_lt : s.tDesel < 2 ^ s.cfg.wT
  ready_of_busy : s.busy = true → s.ready = true
  cs_level : s.ready = true → s.cs = csLevel s.seq
  clk_level : s.ready = true → s.clk = clkLevel s.seq
  bitcnt_fits : bitcntFits s.seq s.bitcnt = true
  hasChan_of_channelSet : s.seq.phase = .channelSet → s.cfg.hasChan = true
  no_hold_idle : s.seq = .idle0 → s.tReady ≤ s.time

/-- The trace is in the order of time, nothing in it lies ahead (20_memory.md R62), and its last change of cmd_ready is the
present cmd_ready (40_host_commands.md R105 (c)). -/
structure State.TraceOrdered (s : State) : Prop where
  sorted : (s.trace.map Prod.fst).Pairwise (· ≤ ·)
  past : ∀ e ∈ s.trace, e.1 ≤ s.time
  cmdReady : lastReady (cmdReadyChanges s.trace) = s.cmdReady

/-- `t` has the engine state S of `s` (41_sequencer_phases.md R110, R127): they differ at most in what stands around the
engine. -/
def SameEngine (s t : State) : Prop :=
  t = { s with
    time := t.time
    cmd := t.cmd
    agenda := t.agenda
    dinScript := t.dinScript
    gaps := t.gaps
    moveCount := t.moveCount
    dinCount := t.dinCount
    gapCount := t.gapCount
    resetCount := t.resetCount
    trace := t.trace }

/-- The state a micro-step leaves (R111 to R126); a host command and a reserved word leave none. -/
def fromState : Instr → Option SeqState
  | .init _ => none
  | .conv _ => none
  | .reservedOpc00 _ => none
  | .reservedOpc03 _ => none
  | .reservedOpc04To07 _ _ => none
  | .reservedOpc08To0F _ _ => none
  | .reservedOpc10To1F _ _ => none
  | .reservedOpc20To3F _ _ => none
  | .reservedOpc40To7F _ _ => none
  | .reservedOpc80ToFF _ _ => none
  | .accept => some .idle0
  | .chset0 => some .channelSet0
  | .chset1 => some .channelSet1
  | .dtpass => some .deadTimeWait0
  | .select => some .deadTimeWait1
  | .startRise => some .selectedSetup0
  | .startFall => some .startPulse0
  | .startSample => some .startPulse1
  | .dataRiseFirst => some .startPulse2
  | .dataFall => some .dataPulse0
  | .dataSample => some .dataPulse1
  | .dataRiseNext => some .dataPulse2
  | .stopRise => some .dataPulse2
  | .stopFall => some .stopPulse0
  | .stopSample => some .stopPulse1
  | .deselect => some .stopPulse2
  | .stamp => some .stopPulse3

/-- The guard of a micro-step beside its from-state and the hold (R111, R114, R119, R122). -/
def ownGuard (i : Instr) (s : State) : Bool :=
  match i with
  | .accept => (convOperand s).isSome
  | .dtpass => deadTimeOk s.cfg s.now s.tDesel
  | .dataRiseNext => s.bitcnt.toNat < Config.nData
  | .stopRise => s.bitcnt.toNat = Config.nData
  | _ => true

/-- The state that follows a state in the fixed order of a conversion (R128). -/
def successor (c : Params) (bitcnt : BitVec 4) : SeqState → SeqState
  | .idle0 => if c.hasChan then .channelSet0 else .deadTimeWait0
  | .channelSet0 => .channelSet1
  | .channelSet1 => .deadTimeWait0
  | .deadTimeWait0 => .deadTimeWait1
  | .deadTimeWait1 => .selectedSetup0
  | .selectedSetup0 => .startPulse0
  | .startPulse0 => .startPulse1
  | .startPulse1 => .startPulse2
  | .startPulse2 => .dataPulse0
  | .dataPulse0 => .dataPulse1
  | .dataPulse1 => .dataPulse2
  | .dataPulse2 => if bitcnt.toNat < Config.nData then .dataPulse0 else .stopPulse0
  | .stopPulse0 => .stopPulse1
  | .stopPulse1 => .stopPulse2
  | .stopPulse2 => .stopPulse3
  | .stopPulse3 => .idle0

/-- How many events are still to come before the conversion in progress completes (R128, R131). -/
def eventsLeft (bitcnt : BitVec 4) : SeqState → Nat
  | .idle0 => 0
  | .channelSet0 => 36
  | .channelSet1 => 35
  | .deadTimeWait0 => 34
  | .deadTimeWait1 => 33
  | .selectedSetup0 => 32
  | .startPulse0 => 31
  | .startPulse1 => 30
  | .startPulse2 => 29
  | .dataPulse0 => 28 - 3 * bitcnt.toNat
  | .dataPulse1 => 27 - 3 * bitcnt.toNat
  | .dataPulse2 => 29 - 3 * bitcnt.toNat
  | .stopPulse0 => 4
  | .stopPulse1 => 3
  | .stopPulse2 => 2
  | .stopPulse3 => 1

/-! Parts of a trace -/

/-- The pin writes of a trace, in order. -/
def writesOf (trace : List (Nat × Event)) : List (Pin × Bit) :=
  trace.filterMap fun e =>
    match e.2 with
    | .write p v => some (p, v)
    | _ => none

/-- The levels the DIN reads of a trace found, in order, the two discarded ones included. -/
def readsOf (trace : List (Nat × Event)) : List Bit :=
  trace.filterMap fun e =>
    match e.2 with
    | .read v => some v
    | _ => none

/-- One clock pulse. -/
def pulseWrites : List (Pin × Bit) := [(.clk, high), (.clk, low)]

/-- The pin writes of one CONV (40_host_commands.md R96). -/
def convWrites (c : Params) (chan : BitVec 2) : List (Pin × Bit) :=
  (if c.hasChan then [(.c0, chanLevel0 chan), (.c1, chanLevel1 chan)] else []) ++
  [(.cs, low)] ++ (List.replicate 10 pulseWrites).flatten ++ [(.cs, high)]

/-- The value of eight data draws, the first one in bit 7 (R95). -/
def byteOfDraws (d : Nat → Bit) : Nat :=
  (d 0).toNat * 128 + (d 1).toNat * 64 + (d 2).toNat * 32 + (d 3).toNat * 16 +
    (d 4).toNat * 8 + (d 5).toNat * 4 + (d 6).toNat * 2 + (d 7).toNat

/-! Runs -/

/-- `n` times: time passes until the next event can happen, and the engine takes it. -/
def awaitGo (n : Nat) : List Move := (List.replicate n [Move.await, Move.go]).flatten

/-- The events of one CONV after its acceptance (41_sequencer_phases.md R131). -/
def convEvents (c : Params) : Nat := if c.hasChan then 36 else 34

end Sys2Proof.Machine
end

