-- ==== Sys2Proof/Certificates/Slice0/Obligations.lean ====
section
/-! DEFINITION. The statements for the provers. Every docstring names the rules of spec/ it formalises; where a clause is the
model's own choice it says so and names the log entry. -/

open Sys2Proof Sys2Proof.Machine

/-! ## Reset -/

/-- R181: what reset leaves, for every piece of state the spec gives a value, and that no DONE has been given. -/
def Obligations.ResetLeavesTheStatedValues : Prop :=
  State.reset.tDesel = 0 ∧ State.reset.seq.phase = .idle ∧ State.reset.seq.sub = 0 ∧ State.reset.busy = false ∧
    responses State.reset.trace = [] ∧ State.reset.tReady = 0 ∧ ∀ p, State.reset.mode p = .unconfigured

/-- R180, R33: the reset event, from any state, also during a conversion: the stated values, and the one event, no pin write
and no DONE. That time, the parameters, the trace and the scripts go on is the model's choice (log entry 9), and that the
trace has an entry for the reset event is too (log entry 17). -/
def Obligations.ResetEventAbandonsEverything : Prop :=
  ∀ (s : State) rest, s.agenda = .reset :: rest → ∃ t, step s = .next t ∧
    t.tDesel = 0 ∧ t.seq = .idle0 ∧ t.busy = false ∧ t.tReady = 0 ∧
    (∀ p, t.mode p = .unconfigured) ∧ t.trace = s.trace ++ [(s.time, .reset)] ∧
    (∀ o, pinEvents o t.trace = pinEvents o s.trace) ∧ responses t.trace = responses s.trace ∧
    t.cfg = s.cfg ∧ t.time = s.time ∧ t.agenda = rest ∧ t.dinScript = s.dinScript ∧ t.gaps = s.gaps

/-- The reset state meets the invariant that every step keeps. -/
def Obligations.ResetMeetsTheInvariant : Prop := State.reset.Inv ∧ State.reset.TraceOrdered

/-! ## Invariants -/

/-- R31 with R24, R27, R99, R111, R144: whatever the environment does next, a step keeps the invariant. -/
def Obligations.StepKeepsTheInvariant : Prop := ∀ s t : State, s.Inv → step s = .next t → t.Inv

/-- R62, R105 (c): the trace stays in the order of time, and cmd_ready as it shows it stays that of the engine. -/
def Obligations.StepKeepsTheTraceOrdered : Prop := ∀ s t : State, s.TraceOrdered → step s = .next t → t.TraceOrdered

/-- R6 to R8, R32 (b): no step changes the parameters. -/
def Obligations.StepKeepsTheParameters : Prop := ∀ s t : State, step s = .next t → t.cfg = s.cfg

/-- R22, R23: nothing but reset falsifies Ready, and once Ready holds no mode changes. -/
def Obligations.ReadyStaysUntilReset : Prop :=
  ∀ s t : State, step s = .next t → s.nextMove ≠ .reset → s.ready = true → t.ready = true ∧ ∀ p, t.mode p = s.mode p

/-- R24, R26: only STAMP, within CONV or by itself, writes T_DESEL and RESULT and gives a response. -/
def Obligations.OnlyTheStampWritesTDeselAndResult : Prop :=
  ∀ (i : Instr) (s t : State), exec i s = .next t → i ≠ .stamp → (∀ opd, i ≠ .conv opd) →
    t.tDesel = s.tDesel ∧ t.result = s.result ∧ responses t.trace = responses s.trace

/-! ## A step -/

/-- R91, R93, R94: a command taken as one transition is exec of the decoded word, the word at the port. -/
def Obligations.StepRunsTheCalledCommand : Prop :=
  ∀ (s : State) w rest, s.agenda = .call w :: rest →
    step s = exec (decodeCommand w) { s with agenda := rest, moveCount := s.moveCount + 1, cmd := some w }

/-- R91, R111: a presented CONV word is taken by ACCEPT, any other word by its own instruction. -/
def Obligations.StepRunsThePresentedCommand : Prop :=
  ∀ (s : State) w rest, s.agenda = .present w :: rest → s.busy = false →
    (∀ opd, decodeCommand w = .conv opd →
      step s = exec .accept { s with agenda := rest, moveCount := s.moveCount + 1, cmd := some w }) ∧
    ((∀ opd, decodeCommand w ≠ .conv opd) →
      step s = exec (decodeCommand w) { s with agenda := rest, moveCount := s.moveCount + 1, cmd := some w })

/-- R110, R128: when the engine goes, it runs the micro-step that its state code and BITCNT decode to. -/
def Obligations.StepRunsTheSelectedMicroStep : Prop :=
  ∀ (s : State) i rest, s.agenda = .go :: rest → decode (.state s.seq.code s.bitcnt) = .ok i →
    step s = exec i { s with agenda := rest, moveCount := s.moveCount + 1 }

/-- R127: TIME PASSES changes t and nothing of the engine; t does not go back. -/
def Obligations.TimePassesAndNothingElse : Prop :=
  (∀ (s : State) d rest, s.agenda = .pass d :: rest →
    step s = .next { s with agenda := rest, moveCount := s.moveCount + 1, time := s.time + d }) ∧
  (∀ (s : State) u rest, s.agenda = .passUntil u :: rest →
    step s = .next { s with agenda := rest, moveCount := s.moveCount + 1, time := max s.time u }) ∧
  (∀ (s : State) rest, s.agenda = .await :: rest → ∃ t, step s = .next t ∧ SameEngine s t ∧ s.time ≤ t.time ∧
    t.trace = s.trace ∧ t.dinScript = s.dinScript ∧ t.agenda = rest)

/-! ## Encoding -/

/-- R70 to R73, R78: decoding the encoding of a well-formed instruction gives it back, operands and all. -/
def Obligations.DecodeInvertsEncode : Prop := ∀ i : Instr, i.wellFormed = true → decode (encode i) = .ok i

/-- R71, R73: every command word is the encoding of the one well-formed instruction it decodes to. -/
def Obligations.EveryCommandWordReencodes : Prop :=
  ∀ w : CmdWord, encode (decodeCommand w) = .word w ∧ (decodeCommand w).wellFormed = true

/-- R73: the reserved words are those with OPC 0x00 or 0x03 to 0xFF. -/
def Obligations.ReservedWordsAreTheOtherOpcodes : Prop :=
  ∀ w : CmdWord, (decodeCommand w).isReserved = true ↔ (opcOf w = 0 ∨ 3 ≤ (opcOf w).toNat)

/-- R78, R128: a state code and a BITCNT in range select exactly the micro-step that leaves that state. -/
def Obligations.EachStateSelectsOneMicroStep : Prop :=
  ∀ (q : SeqState) (k : BitVec 4) (i : Instr), bitcntFits q k = true →
    (decodeState q.code k = .ok i ↔
      fromState i = some q ∧ (i = .dataRiseNext → k.toNat < 8) ∧ (i = .stopRise → k.toNat = 8))

/-- R71, R72, R78: words written out from the spec's tables. -/
def Obligations.SpecWordsDecode : Prop :=
  decodeCommand 0x0100 = .init 0x00 ∧ decodeCommand 0x0206 = .conv 0x06 ∧ decodeCommand 0x8200 = .reservedOpc80ToFF 0x82 0x00 ∧
    decodeState 0b01001 0 = .ok .select ∧ decodeState 0b10110 8 = .ok .stopRise

/-! ## INIT -/

/-- R93: INIT configures the pins, drives CS high and CLK low, all at its acceptance time, and writes nothing else. That the
word leaves the port is the model's (log entry 4). -/
def Obligations.InitConfiguresThePinsAndIdlesTheLines : Prop :=
  ∀ (s : State) opd, s.seq = .idle0 → exec (.init opd) s = .next { s with
    modeDin := .inputPullup
    modeCs := .output
    modeClk := .output
    cs := high
    clk := low
    modeC0 := if s.cfg.hasChan then .output else s.modeC0
    modeC1 := if s.cfg.hasChan then .output else s.modeC1
    cmd := none
    trace := s.trace ++
      ([Event.cfg .din .inputPullup, .cfg .cs .output, .cfg .clk .output, .write .cs high, .write .clk low] ++
        (if s.cfg.hasChan then [Event.cfg .c0 .output, .cfg .c1 .output] else [])).map fun e => (s.time, e) }

/-- R93 (a): a second INIT changes nothing and produces the same events again. -/
def Obligations.InitTwiceIsInitOnce : Prop :=
  ∀ (s : State) opd opd' t, exec (.init opd) s = .next t →
    exec (.init opd') t = .next { t with trace := t.trace ++ t.trace.drop s.trace.length }

/-! ## CONV as one transition -/

/-- R94, R101: from (IDLE, 0) with Ready and no hold pending CONV completes, with the lines idle, the channel on C0 and C1,
RESULT and T_DESEL written, DONE given, and what it does not name unchanged. That the port is empty is the model's (log entry
4), and so is that C0, C1 and CHSEL, which do not exist without channel pins, keep their values there (log entry 20). -/
def Obligations.ConvCompletesAndRestoresIdle : Prop :=
  ∀ (s : State) opd, s.seq = .idle0 → s.ready = true → s.tReady ≤ s.time → ∃ t, exec (.conv opd) s = .next t ∧
    t.seq = .idle0 ∧ t.cs = high ∧ t.clk = low ∧
    (s.cfg.hasChan = true →
      t.c0 = chanLevel0 (chanOf s.cfg opd) ∧ t.c1 = chanLevel1 (chanOf s.cfg opd)) ∧
    (s.cfg.hasChan = false → t.c0 = s.c0 ∧ t.c1 = s.c1 ∧ t.chsel = s.chsel) ∧
    t.result = t.shreg ∧ t.tDesel = nowAt s.cfg t.time ∧
    responses t.trace = responses s.trace ++ [(t.time, t.result)] ∧
    (∀ p, t.mode p = s.mode p) ∧ t.cfg = s.cfg ∧ t.cmd = none ∧ t.agenda = s.agenda ∧ t.resetCount = s.resetCount

/-- R95: RESULT is the eight data draws, the first in bit 7; the first and the last of the ten draws do not matter. -/
def Obligations.ConvReturnsTheEightDataDraws : Prop :=
  ∀ (s : State) opd, s.seq = .idle0 → s.ready = true → s.tReady ≤ s.time → ∃ t, exec (.conv opd) s = .next t ∧
    t.result.toNat = byteOfDraws (fun k => s.dinAt (k + 1)) ∧
    (∀ k, k < 8 → t.result.getLsbD (7 - k) = (s.dinAt (k + 1)).getLsbD 0)

/-- R96, R97: the whole trace of a CONV, with its times: the writes, the ten reads each after its falling edge, the two
reads of the time base, every inequality between their times, and how long CS is low (R193). -/
def Obligations.ConvProducesItsTrace : Prop :=
  ∀ (s : State) opd, s.seq = .idle0 → s.ready = true → s.tReady ≤ s.time →
    ∃ (t : State) (tC0 tC1 tDT tSEL tDES tST : Nat) (tR tF tS : Nat → Nat), exec (.conv opd) s = .next t ∧
      t.trace = s.trace ++ [(s.time, .accept (cmd16 0x02 opd))] ++
        (if s.cfg.hasChan then
          [(tC0, .write .c0 (chanLevel0 (chanOf s.cfg opd))), (tC1, .write .c1 (chanLevel1 (chanOf s.cfg opd)))]
        else []) ++
        [(tDT, .now (nowAt s.cfg tDT)), (tSEL, .write .cs low)] ++
        (List.range 10).flatMap (fun j =>
          [(tR j, .write .clk high), (tF j, .write .clk low), (tS j, .read (s.dinAt j))]) ++
        [(tDES, .write .cs high), (tST, .stamp (nowAt s.cfg tST) t.result)] ∧
      (s.cfg.hasChan = true → s.time ≤ tC0 ∧ tC0 ≤ tC1 ∧ tC1 + s.cfg.tChSetup ≤ tDT) ∧
      (s.cfg.hasChan = false → s.time ≤ tDT) ∧
      s.cfg.tCsh ≤ (elapsed s.cfg.wT (nowAt s.cfg tDT) s.tDesel).toNat ∧
      tDT ≤ tSEL ∧ tSEL + s.cfg.tCss ≤ tR 0 ∧
      (∀ j, j < 10 → tR j + s.cfg.tCkh ≤ tF j ∧ tF j ≤ tS j) ∧
      (∀ j, j < 9 → tS j + s.cfg.tCkl ≤ tR (j + 1)) ∧
      tS 9 ≤ tDES ∧ tDES ≤ tST ∧
      tSEL + s.cfg.tCss + 10 * s.cfg.tCkh + 9 * s.cfg.tCkl ≤ tDES ∧ t.time = tST ∧ t.tDesel = nowAt s.cfg tST

/-- R96, R131: the pin writes of one CONV are exactly those of R96, it reads DIN ten times, and it has 37 or 35 events. -/
def Obligations.ConvWritesAndCounts : Prop :=
  ∀ (s : State) opd, s.seq = .idle0 → s.ready = true → s.tReady ≤ s.time →
    ∃ (t : State) (new : List (Nat × Event)), exec (.conv opd) s = .next t ∧ t.trace = s.trace ++ new ∧
      writesOf new = convWrites s.cfg (chanOf s.cfg opd) ∧ readsOf new = (List.range 10).map s.dinAt ∧
      (writesOf new).length = (if s.cfg.hasChan then 24 else 22) ∧
      new.length = (if s.cfg.hasChan then 37 else 35)

/-- R103: CONV as one transition ends in the state that ACCEPT and the micro-steps after it end in, event by event, whatever
the levels of DIN and whatever the slacks. -/
def Obligations.ConvAgreesWithItsMicroSteps : Prop :=
  ∀ (s : State) opd, s.seq = .idle0 → s.ready = true → s.tReady ≤ s.time →
    ∃ t, exec (.conv opd) s = .next t ∧
      steps (1 + 2 * convEvents s.cfg)
        { s with agenda := .present (cmd16 0x02 opd) :: (awaitGo (convEvents s.cfg) ++ s.agenda) } =
      .next { t with moveCount := s.moveCount + (1 + 2 * convEvents s.cfg) }

/-- R72, R100: with channel pins and no fixed channel only OPD[1:0] matters; otherwise OPD does not matter at all. With a
hold pending nothing differs; else only the word in the trace's ACCEPT entry does. -/
def Obligations.ConvIgnoresTheOtherOperandBits : Prop :=
  ∀ (s : State) opd opd' t,
    (chanBits opd = chanBits opd' ∨ s.cfg.fixedChannel ≠ none ∨ s.cfg.hasChan = false) →
    exec (.conv opd) s = .next t →
    (s.time < s.tReady ∧ exec (.conv opd') s = .next t) ∨
    (∃ rest, t.trace = s.trace ++ (s.time, .accept (cmd16 0x02 opd)) :: rest ∧
      exec (.conv opd') s = .next { t with trace := s.trace ++ (s.time, .accept (cmd16 0x02 opd')) :: rest })

/-- R96: no pin write is conditional on data. Whatever DIN reads find, every instruction makes the same pin events at the same
times and leaves the same sequencer state. R105: of a CONV nothing that is observed depends on the start and stop samples. -/
def Obligations.NoPinWriteDependsOnData : Prop :=
  (∀ (i : Instr) (s t : State) (levels : List Bit) (n : Nat), exec i s = .next t →
    ∃ t', exec i { s with dinScript := levels, dinCount := n } = .next t' ∧
      (∀ o, pinEvents o t'.trace = pinEvents o t.trace) ∧ cmdReadyChanges t'.trace = cmdReadyChanges t.trace ∧
      t'.time = t.time ∧ t'.seq = t.seq ∧ t'.bitcnt = t.bitcnt ∧
      t'.cs = t.cs ∧ t'.clk = t.clk ∧ t'.c0 = t.c0 ∧ t'.c1 = t.c1 ∧ t'.tReady = t.tReady ∧ t'.tDesel = t.tDesel) ∧
  (∀ (s t : State) opd (levels : List Bit) (n : Nat), exec (.conv opd) s = .next t →
    (∀ k, 1 ≤ k → k ≤ 8 → ({ s with dinScript := levels, dinCount := n } : State).dinAt k = s.dinAt k) →
    ∃ t', exec (.conv opd) { s with dinScript := levels, dinCount := n } = .next t' ∧
      ∀ o, t'.observation o = t.observation o)

/-! ## Micro-steps: each with the whole state it leaves. T_READY is R110's; the trace entry is the event itself. -/

/-- R111. That the word leaves the port is the model's (log entry 4), and so is that CHSEL, which does not exist without channel
pins, is a field that keeps its value there (log entry 20). -/
def Obligations.AcceptTakesTheCommand : Prop :=
  ∀ (s : State) w, s.seq = .idle0 → s.tReady ≤ s.time → s.ready = true → s.cmd = some w → opcOf w = 0x02 →
    exec .accept s = .next { s with
      chsel := if s.cfg.hasChan then s.cfg.fixedChannel.getD ((opdOf w).extractLsb' 0 2) else s.chsel
      seq := if s.cfg.hasChan then .channelSet0 else .deadTimeWait0
      cmd := none
      tReady := s.time
      trace := s.trace ++ [(s.time, .accept w)] }

/-- R112, the whole next state. -/
def Obligations.Chset0DrivesC0 : Prop :=
  ∀ (s : State), s.seq = .channelSet0 → s.tReady ≤ s.time → s.cfg.hasChan = true → s.modeC0 = .output →
    exec .chset0 s = .next { s with
      c0 := s.chsel.extractLsb' 0 1
      seq := .channelSet1
      tReady := s.time
      trace := s.trace ++ [(s.time, .write .c0 (s.chsel.extractLsb' 0 1))] }

/-- R113, the whole next state. That CHSEL keeps its value on leaving CHANNEL_SET, where R28 calls it unspecified, is the
model's (log entry 20). -/
def Obligations.Chset1DrivesC1AndHolds : Prop :=
  ∀ (s : State), s.seq = .channelSet1 → s.tReady ≤ s.time → s.cfg.hasChan = true → s.modeC1 = .output →
    exec .chset1 s = .next { s with
      c1 := s.chsel.extractLsb' 1 1
      seq := .deadTimeWait0
      tReady := s.time + s.cfg.tChSetup
      trace := s.trace ++ [(s.time, .write .c1 (s.chsel.extractLsb' 1 1))] }

/-- R114, the whole next state. -/
def Obligations.DtpassTestsTheDeadTime : Prop :=
  ∀ (s : State), s.seq = .deadTimeWait0 → s.tReady ≤ s.time →
    (s.cfg.tCsh ≤ (elapsed s.cfg.wT (nowAt s.cfg s.time) s.tDesel).toNat →
      exec .dtpass s = .next { s with
        seq := .deadTimeWait1
        tReady := s.time
        trace := s.trace ++ [(s.time, .now (nowAt s.cfg s.time))] }) ∧
    (¬ s.cfg.tCsh ≤ (elapsed s.cfg.wT (nowAt s.cfg s.time) s.tDesel).toNat →
      ∃ t, exec .dtpass s = .next t ∧ SameEngine s t ∧ t.trace = s.trace)

/-- R115, the whole next state. -/
def Obligations.SelectAssertsChipSelect : Prop :=
  ∀ (s : State), s.seq = .deadTimeWait1 → s.tReady ≤ s.time → s.modeCs = .output →
    exec .select s = .next { s with
      cs := low
      shreg := 0x00
      bitcnt := 0
      seq := .selectedSetup0
      tReady := s.time + s.cfg.tCss
      trace := s.trace ++ [(s.time, .write .cs low)] }

/-- R116, the whole next state. -/
def Obligations.StartRiseRaisesTheClock : Prop :=
  ∀ (s : State), s.seq = .selectedSetup0 → s.tReady ≤ s.time → s.modeClk = .output →
    exec .startRise s = .next { s with
      clk := high
      seq := .startPulse0
      tReady := s.time + s.cfg.tCkh
      trace := s.trace ++ [(s.time, .write .clk high)] }

/-- R117, the whole next state. -/
def Obligations.StartFallLowersTheClock : Prop :=
  ∀ (s : State), s.seq = .startPulse0 → s.tReady ≤ s.time → s.modeClk = .output →
    exec .startFall s = .next { s with
      clk := low
      seq := .startPulse1
      tReady := s.time
      trace := s.trace ++ [(s.time, .write .clk low)] }

/-- R118: the sample reaches no register. -/
def Obligations.StartSampleIsDiscarded : Prop :=
  ∀ (s : State), s.seq = .startPulse1 → s.tReady ≤ s.time → s.modeDin = .inputPullup →
    exec .startSample s = .next { s with
      seq := .startPulse2
      tReady := s.time + s.cfg.tCkl
      dinScript := s.dinScript.tail
      dinCount := s.dinCount + 1
      trace := s.trace ++ [(s.time, .read (s.dinAt 0))] }

/-- R119: from both of its from-states; BITCNT is unchanged. -/
def Obligations.DataRiseRaisesTheClock : Prop :=
  ∀ (s : State), s.tReady ≤ s.time → s.modeClk = .output →
    (s.seq = .startPulse2 →
      exec .dataRiseFirst s = .next { s with
        clk := high
        seq := .dataPulse0
        tReady := s.time + s.cfg.tCkh
        trace := s.trace ++ [(s.time, .write .clk high)] }) ∧
    (s.seq = .dataPulse2 → s.bitcnt.toNat < 8 →
      exec .dataRiseNext s = .next { s with
        clk := high
        seq := .dataPulse0
        tReady := s.time + s.cfg.tCkh
        trace := s.trace ++ [(s.time, .write .clk high)] })

/-- R120, the whole next state. -/
def Obligations.DataFallLowersTheClock : Prop :=
  ∀ (s : State), s.seq = .dataPulse0 → s.tReady ≤ s.time → s.modeClk = .output →
    exec .dataFall s = .next { s with
      clk := low
      seq := .dataPulse1
      tReady := s.time
      trace := s.trace ++ [(s.time, .write .clk low)] }

/-- R121, the whole next state. -/
def Obligations.DataSampleShiftsOneBitIn : Prop :=
  ∀ (s : State), s.seq = .dataPulse1 → s.tReady ≤ s.time → s.modeDin = .inputPullup → s.bitcnt.toNat < 8 →
    exec .dataSample s = .next { s with
      shreg := (s.shreg <<< 1) ||| (s.dinAt 0).setWidth 8
      bitcnt := s.bitcnt + 1
      seq := .dataPulse2
      tReady := s.time + s.cfg.tCkl
      dinScript := s.dinScript.tail
      dinCount := s.dinCount + 1
      trace := s.trace ++ [(s.time, .read (s.dinAt 0))] }

/-- R122, the whole next state. -/
def Obligations.StopRiseRaisesTheClock : Prop :=
  ∀ (s : State), s.seq = .dataPulse2 → s.bitcnt.toNat = 8 → s.tReady ≤ s.time → s.modeClk = .output →
    exec .stopRise s = .next { s with
      clk := high
      seq := .stopPulse0
      tReady := s.time + s.cfg.tCkh
      trace := s.trace ++ [(s.time, .write .clk high)] }

/-- R123, the whole next state. -/
def Obligations.StopFallLowersTheClock : Prop :=
  ∀ (s : State), s.seq = .stopPulse0 → s.tReady ≤ s.time → s.modeClk = .output →
    exec .stopFall s = .next { s with
      clk := low
      seq := .stopPulse1
      tReady := s.time
      trace := s.trace ++ [(s.time, .write .clk low)] }

/-- R124: the sample reaches no register, and there is no hold. -/
def Obligations.StopSampleIsDiscarded : Prop :=
  ∀ (s : State), s.seq = .stopPulse1 → s.tReady ≤ s.time → s.modeDin = .inputPullup →
    exec .stopSample s = .next { s with
      seq := .stopPulse2
      tReady := s.time
      dinScript := s.dinScript.tail
      dinCount := s.dinCount + 1
      trace := s.trace ++ [(s.time, .read (s.dinAt 0))] }

/-- R125, the whole next state. -/
def Obligations.DeselectRaisesChipSelect : Prop :=
  ∀ (s : State), s.seq = .stopPulse2 → s.tReady ≤ s.time → s.modeCs = .output →
    exec .deselect s = .next { s with
      cs := high
      seq := .stopPulse3
      tReady := s.time
      trace := s.trace ++ [(s.time, .write .cs high)] }

/-- R126, R101: RESULT, T_DESEL, DONE and IDLE in one event. -/
def Obligations.StampCompletesTheConversion : Prop :=
  ∀ (s : State), s.seq = .stopPulse3 → s.tReady ≤ s.time →
    exec .stamp s = .next { s with
      tDesel := nowAt s.cfg s.time
      result := s.shreg
      seq := .idle0
      tReady := s.time
      trace := s.trace ++ [(s.time, .stamp (nowAt s.cfg s.time) s.shreg)] }

/-- A micro-step out of its from-state, under a hold, or with its guard false does not happen (R110). That exec of it then
answers a state in which only time has passed is the model's reading of R127, which says so of a pending hold and a false
dead-time guard (log entry 13); that the word stays at the port is the model's (log entry 4). ACCEPT before INIT is refused
instead: ConvBeforeInitIsRefused. -/
def Obligations.DisabledMicroStepsOnlyLetTimePass : Prop :=
  ∀ (i : Instr) (q : SeqState) (s : State), fromState i = some q → (i = .accept → s.ready = true) →
    ¬(s.seq = q ∧ s.tReady ≤ s.time ∧ ownGuard i s = true) →
    ∃ t, exec i s = .next t ∧ SameEngine s t ∧ s.time ≤ t.time ∧ t.trace = s.trace ∧
      t.dinScript = s.dinScript ∧ t.cmd = s.cmd

/-- R128: the order of the events is fixed. A micro-step that does anything to the engine was enabled and leads to the one
successor of its state. -/
def Obligations.TheSequenceIsLinear : Prop :=
  ∀ (i : Instr) (q : SeqState) (s t : State), fromState i = some q → exec i s = .next t →
    SameEngine s t ∨
    (s.seq = q ∧ s.tReady ≤ s.time ∧ ownGuard i s = true ∧ t.seq = successor s.cfg s.bitcnt q)

/-- R130, R173, R174: a busy engine that meets the invariant completes when time passes: as many events as are left, each
waited for, end in (IDLE, 0) with a response and the lines idle, whatever the slacks and the levels of DIN. R106: if no
command is left and none stands at the port, that is the final state of the run. -/
def Obligations.BusyEngineCompletes : Prop :=
  ∀ (s : State) rest, s.Inv → s.busy = true →
    ∃ t, steps (2 * eventsLeft s.bitcnt s.seq) { s with agenda := awaitGo (eventsLeft s.bitcnt s.seq) ++ rest } = .next t ∧
      t.seq = .idle0 ∧ t.cs = high ∧ t.clk = low ∧ t.result = t.shreg ∧ t.agenda = rest ∧
      responses t.trace = responses s.trace ++ [(t.time, t.result)] ∧
      (s.cmd = none → rest.filterMap Move.command = [] →
        finalState (2 * eventsLeft s.bitcnt s.seq)
          { s with agenda := awaitGo (eventsLeft s.bitcnt s.seq) ++ rest } = some t)

/-- R52, R54, R163 (d): a conversion in progress is never refused. -/
def Obligations.ConversionInProgressIsNeverRefused : Prop :=
  ∀ (s : State) rest, s.Inv → s.busy = true → (s.agenda = .go :: rest ∨ s.agenda = .await :: rest) → ∃ t, step s = .next t

/-- R97, R102, R127: waiting can end at every time at which the micro-step may fire, and at no other. -/
def Obligations.WaitingEndsAtEveryAllowedTime : Prop :=
  ∀ (s : State) (u : Nat),
    (s.time ≤ u ∧ s.tReady ≤ u ∧
        (s.seq = .deadTimeWait0 → s.cfg.tCsh ≤ (elapsed s.cfg.wT (nowAt s.cfg u) s.tDesel).toNat)) ↔
    ∃ g, ({ s with gaps := g :: s.gaps } : State).await.time = u

/-! ## What is refused -/

/-- R73, R98, R163 (c): every reserved row is refused in every state. -/
def Obligations.ReservedRowsAreRefused : Prop :=
  ∀ (i : Instr) (s : State) (w : CmdWord), i.isReserved = true → encode i = .word w → exec i s = .refused (.reservedWord (opcOf w))

/-- R98: a run in which the host presents a reserved word has no step for it. -/
def Obligations.PresentingAReservedWordIsRefused : Prop :=
  ∀ (s : State) w rest, opcOf w ≠ 0x01 → opcOf w ≠ 0x02 → s.busy = false →
    (s.agenda = .present w :: rest ∨ s.agenda = .call w :: rest) → step s = .refused (.reservedWord (opcOf w))

/-- R92, R163 (a): while BUSY no command is accepted. -/
def Obligations.CommandsWhileBusyAreRefused : Prop :=
  ∀ (s : State) opd w rest, s.busy = true →
    exec (.init opd) s = .refused .commandWhileBusy ∧ exec (.conv opd) s = .refused .commandWhileBusy ∧
    (s.agenda = .present w :: rest → step s = .refused .commandWhileBusy)

/-- R99, R163 (b): CONV before INIT has no step, as one transition and through ACCEPT. -/
def Obligations.ConvBeforeInitIsRefused : Prop :=
  ∀ (s : State) opd, s.seq = .idle0 → s.ready = false →
    exec (.conv opd) s = .refused .convBeforeInit ∧
    exec .accept { s with cmd := some (cmd16 0x02 opd) } = .refused .convBeforeInit

/-! ## Pins -/

/-- R52: PinWrite to an output of the instance sets its latch and records a WRITE event; to any other pin it is refused. -/
def Obligations.PinWriteNeedsAnOutput : Prop :=
  ∀ (s : State) p v,
    (p ≠ .din ∧ s.outputEnable p = true → ∃ t, pinWrite p v s = .next t ∧ t.latch p = some v ∧
      t.trace = s.trace ++ [(s.time, .write p v)] ∧ (∀ p', p' ≠ p → t.latch p' = s.latch p') ∧
      (∀ p', t.mode p' = s.mode p') ∧ t.time = s.time ∧ t.tReady = s.tReady) ∧
    (p = .din ∨ s.outputEnable p = false → pinWrite p v s = .refused (.writeToNonOutput p))

/-- R54: a read of DIN that is no pulled-up input is refused, in each of the three samples. -/
def Obligations.SamplesNeedAPulledUpInput : Prop :=
  ∀ (s : State), s.modeDin ≠ .inputPullup → s.tReady ≤ s.time →
    (s.seq = .startPulse1 → exec .startSample s = .refused .readOfNonInput) ∧
    (s.seq = .dataPulse1 → s.bitcnt.toNat < 8 → exec .dataSample s = .refused .readOfNonInput) ∧
    (s.seq = .stopPulse1 → exec .stopSample s = .refused .readOfNonInput)

/-- R53: an observer sees the latch of a driven output; a write changes the level seen on its own pin, to the value written,
and on no other driven output. -/
def Obligations.TheWireShowsTheLatch : Prop :=
  (∀ (s : State) p v, s.outputEnable p = true → s.latch p = some v → s.wire p = v) ∧
  (∀ (s : State) p v t, pinWrite p v s = .next t →
    t.wire p = v ∧ ∀ p', p' ≠ p → s.outputEnable p' = true → t.wire p' = s.wire p')

/-! ## The datapath -/

/-- R140: ShiftIn as a number and as bits. -/
def Obligations.ShiftInShiftsLeftAndAppends : Prop :=
  ∀ (r : Byte) (b : Bit), shiftIn r b = r.extractLsb' 0 7 ++ b ∧ (shiftIn r b).toNat = (2 * r.toNat + b.toNat) % 256

/-- R146: after k shift-ins the register holds r[7-k:0], d0, …, d(k-1), and after eight the draws alone. -/
def Obligations.EightShiftInsHoldTheDraws : Prop :=
  ∀ (r : Byte) (d : Nat → Bit),
    (∀ k i, k ≤ 8 → i < 8 → (((List.range k).map d).foldl shiftIn r).getLsbD i =
      if i < k then (d (k - 1 - i)).getLsbD 0 else r.getLsbD (i - k)) ∧
    (((List.range 8).map d).foldl shiftIn r).toNat = byteOfDraws d

/-- R141, R79: the channel levels are the two low bits of the operand byte. -/
def Obligations.ChanDecodeTakesTheLowBits : Prop :=
  ∀ v : Byte, (chanDecode v).1.toNat = v.toNat % 2 ∧ (chanDecode v).2.toNat = v.toNat / 2 % 2 ∧
    chanBits v = (chanDecode v).2 ++ (chanDecode v).1 ∧
    chanLevel0 (chanBits v) = (chanDecode v).1 ∧ chanLevel1 (chanBits v) = (chanDecode v).2

/-- R142: Elapsed is the difference modulo 2^W_T, so it is the true elapsed time within one turn of the time base. -/
def Obligations.ElapsedIsExactWithinOneTurn : Prop :=
  (∀ w now last : Nat, now < 2 ^ w → last < 2 ^ w →
    (elapsed w now last).toNat = if last ≤ now then now - last else now + 2 ^ w - last) ∧
  (∀ w a b : Nat, a ≤ b → b - a < 2 ^ w → (elapsed w (b % 2 ^ w) (a % 2 ^ w)).toNat = b - a)

/-- R188: however the time base wraps, the dead-time test never passes before T_CSH microseconds have truly passed; and a
test that fails passes at most T_CSH microseconds later. -/
def Obligations.DeadTimeNeverPassesEarly : Prop :=
  ∀ (c : Params) (a b : Nat), a ≤ b →
    (deadTimeOk c (nowAt c b) (nowAt c a) = true → c.tCsh ≤ b - a) ∧
    ∃ d, d ≤ c.tCsh ∧ deadTimeOk c (nowAt c (b + d)) (nowAt c a) = true

/-- R183: before any conversion the test passes exactly when NOW has reached T_CSH. -/
def Obligations.FirstDeadTimeTestNeedsNowAtLeastTCsh : Prop :=
  ∀ (c : Params) (t : Nat), deadTimeOk c (nowAt c t) State.reset.tDesel = true ↔ c.tCsh ≤ nowAt c t
end

