-- ==== Sys2Proof/Laws/State.lean ====
section
/-! SUPPORT. One lemma per field per update of State, so that no later proof unfolds a record update. -/

namespace Sys2Proof.Machine

@[simp] theorem State.gapAt_pass (s : State) (d k : Nat) : (s.pass d).gapAt k = s.gapAt k := rfl

/-! pass -/

@[simp] theorem State.pass_cfg (s : State) (d : Nat) : (s.pass d).cfg = s.cfg := rfl
@[simp] theorem State.pass_cs (s : State) (d : Nat) : (s.pass d).cs = s.cs := rfl
@[simp] theorem State.pass_clk (s : State) (d : Nat) : (s.pass d).clk = s.clk := rfl
@[simp] theorem State.pass_c0 (s : State) (d : Nat) : (s.pass d).c0 = s.c0 := rfl
@[simp] theorem State.pass_c1 (s : State) (d : Nat) : (s.pass d).c1 = s.c1 := rfl
@[simp] theorem State.pass_modeCs (s : State) (d : Nat) : (s.pass d).modeCs = s.modeCs := rfl
@[simp] theorem State.pass_modeClk (s : State) (d : Nat) : (s.pass d).modeClk = s.modeClk := rfl
@[simp] theorem State.pass_modeDin (s : State) (d : Nat) : (s.pass d).modeDin = s.modeDin := rfl
@[simp] theorem State.pass_modeC0 (s : State) (d : Nat) : (s.pass d).modeC0 = s.modeC0 := rfl
@[simp] theorem State.pass_modeC1 (s : State) (d : Nat) : (s.pass d).modeC1 = s.modeC1 := rfl
@[simp] theorem State.pass_tDesel (s : State) (d : Nat) : (s.pass d).tDesel = s.tDesel := rfl
@[simp] theorem State.pass_shreg (s : State) (d : Nat) : (s.pass d).shreg = s.shreg := rfl
@[simp] theorem State.pass_result (s : State) (d : Nat) : (s.pass d).result = s.result := rfl
@[simp] theorem State.pass_seq (s : State) (d : Nat) : (s.pass d).seq = s.seq := rfl
@[simp] theorem State.pass_bitcnt (s : State) (d : Nat) : (s.pass d).bitcnt = s.bitcnt := rfl
@[simp] theorem State.pass_chsel (s : State) (d : Nat) : (s.pass d).chsel = s.chsel := rfl
@[simp] theorem State.pass_tReady (s : State) (d : Nat) : (s.pass d).tReady = s.tReady := rfl
@[simp] theorem State.pass_time (s : State) (d : Nat) : (s.pass d).time = s.time + d := rfl
@[simp] theorem State.pass_cmd (s : State) (d : Nat) : (s.pass d).cmd = s.cmd := rfl
@[simp] theorem State.pass_agenda (s : State) (d : Nat) : (s.pass d).agenda = s.agenda := rfl
@[simp] theorem State.pass_dinScript (s : State) (d : Nat) : (s.pass d).dinScript = s.dinScript := rfl
@[simp] theorem State.pass_gaps (s : State) (d : Nat) : (s.pass d).gaps = s.gaps := rfl
@[simp] theorem State.pass_moveCount (s : State) (d : Nat) : (s.pass d).moveCount = s.moveCount := rfl
@[simp] theorem State.pass_dinCount (s : State) (d : Nat) : (s.pass d).dinCount = s.dinCount := rfl
@[simp] theorem State.pass_gapCount (s : State) (d : Nat) : (s.pass d).gapCount = s.gapCount := rfl
@[simp] theorem State.pass_resetCount (s : State) (d : Nat) : (s.pass d).resetCount = s.resetCount := rfl
@[simp] theorem State.pass_trace (s : State) (d : Nat) : (s.pass d).trace = s.trace := rfl

/-! record -/

@[simp] theorem State.record_cfg (s : State) (e : Event) : (s.record e).cfg = s.cfg := rfl
@[simp] theorem State.record_cs (s : State) (e : Event) : (s.record e).cs = s.cs := rfl
@[simp] theorem State.record_clk (s : State) (e : Event) : (s.record e).clk = s.clk := rfl
@[simp] theorem State.record_c0 (s : State) (e : Event) : (s.record e).c0 = s.c0 := rfl
@[simp] theorem State.record_c1 (s : State) (e : Event) : (s.record e).c1 = s.c1 := rfl
@[simp] theorem State.record_modeCs (s : State) (e : Event) : (s.record e).modeCs = s.modeCs := rfl
@[simp] theorem State.record_modeClk (s : State) (e : Event) : (s.record e).modeClk = s.modeClk := rfl
@[simp] theorem State.record_modeDin (s : State) (e : Event) : (s.record e).modeDin = s.modeDin := rfl
@[simp] theorem State.record_modeC0 (s : State) (e : Event) : (s.record e).modeC0 = s.modeC0 := rfl
@[simp] theorem State.record_modeC1 (s : State) (e : Event) : (s.record e).modeC1 = s.modeC1 := rfl
@[simp] theorem State.record_tDesel (s : State) (e : Event) : (s.record e).tDesel = s.tDesel := rfl
@[simp] theorem State.record_shreg (s : State) (e : Event) : (s.record e).shreg = s.shreg := rfl
@[simp] theorem State.record_result (s : State) (e : Event) : (s.record e).result = s.result := rfl
@[simp] theorem State.record_seq (s : State) (e : Event) : (s.record e).seq = s.seq := rfl
@[simp] theorem State.record_bitcnt (s : State) (e : Event) : (s.record e).bitcnt = s.bitcnt := rfl
@[simp] theorem State.record_chsel (s : State) (e : Event) : (s.record e).chsel = s.chsel := rfl
@[simp] theorem State.record_tReady (s : State) (e : Event) : (s.record e).tReady = s.tReady := rfl
@[simp] theorem State.record_time (s : State) (e : Event) : (s.record e).time = s.time := rfl
@[simp] theorem State.record_cmd (s : State) (e : Event) : (s.record e).cmd = s.cmd := rfl
@[simp] theorem State.record_agenda (s : State) (e : Event) : (s.record e).agenda = s.agenda := rfl
@[simp] theorem State.record_dinScript (s : State) (e : Event) : (s.record e).dinScript = s.dinScript := rfl
@[simp] theorem State.record_gaps (s : State) (e : Event) : (s.record e).gaps = s.gaps := rfl
@[simp] theorem State.record_moveCount (s : State) (e : Event) : (s.record e).moveCount = s.moveCount := rfl
@[simp] theorem State.record_dinCount (s : State) (e : Event) : (s.record e).dinCount = s.dinCount := rfl
@[simp] theorem State.record_gapCount (s : State) (e : Event) : (s.record e).gapCount = s.gapCount := rfl
@[simp] theorem State.record_resetCount (s : State) (e : Event) : (s.record e).resetCount = s.resetCount := rfl
@[simp] theorem State.record_trace (s : State) (e : Event) : (s.record e).trace = s.trace ++ [(s.time, e)] := rfl

/-! takeGap -/

@[simp] theorem State.takeGap_cfg (s : State) : s.takeGap.cfg = s.cfg := rfl
@[simp] theorem State.takeGap_cs (s : State) : s.takeGap.cs = s.cs := rfl
@[simp] theorem State.takeGap_clk (s : State) : s.takeGap.clk = s.clk := rfl
@[simp] theorem State.takeGap_c0 (s : State) : s.takeGap.c0 = s.c0 := rfl
@[simp] theorem State.takeGap_c1 (s : State) : s.takeGap.c1 = s.c1 := rfl
@[simp] theorem State.takeGap_modeCs (s : State) : s.takeGap.modeCs = s.modeCs := rfl
@[simp] theorem State.takeGap_modeClk (s : State) : s.takeGap.modeClk = s.modeClk := rfl
@[simp] theorem State.takeGap_modeDin (s : State) : s.takeGap.modeDin = s.modeDin := rfl
@[simp] theorem State.takeGap_modeC0 (s : State) : s.takeGap.modeC0 = s.modeC0 := rfl
@[simp] theorem State.takeGap_modeC1 (s : State) : s.takeGap.modeC1 = s.modeC1 := rfl
@[simp] theorem State.takeGap_tDesel (s : State) : s.takeGap.tDesel = s.tDesel := rfl
@[simp] theorem State.takeGap_shreg (s : State) : s.takeGap.shreg = s.shreg := rfl
@[simp] theorem State.takeGap_result (s : State) : s.takeGap.result = s.result := rfl
@[simp] theorem State.takeGap_seq (s : State) : s.takeGap.seq = s.seq := rfl
@[simp] theorem State.takeGap_bitcnt (s : State) : s.takeGap.bitcnt = s.bitcnt := rfl
@[simp] theorem State.takeGap_chsel (s : State) : s.takeGap.chsel = s.chsel := rfl
@[simp] theorem State.takeGap_tReady (s : State) : s.takeGap.tReady = s.tReady := rfl
@[simp] theorem State.takeGap_time (s : State) : s.takeGap.time = s.time := rfl
@[simp] theorem State.takeGap_cmd (s : State) : s.takeGap.cmd = s.cmd := rfl
@[simp] theorem State.takeGap_agenda (s : State) : s.takeGap.agenda = s.agenda := rfl
@[simp] theorem State.takeGap_dinScript (s : State) : s.takeGap.dinScript = s.dinScript := rfl
@[simp] theorem State.takeGap_gaps (s : State) : s.takeGap.gaps = s.gaps.tail := rfl
@[simp] theorem State.takeGap_moveCount (s : State) : s.takeGap.moveCount = s.moveCount := rfl
@[simp] theorem State.takeGap_dinCount (s : State) : s.takeGap.dinCount = s.dinCount := rfl
@[simp] theorem State.takeGap_gapCount (s : State) : s.takeGap.gapCount = s.gapCount + 1 := rfl
@[simp] theorem State.takeGap_resetCount (s : State) : s.takeGap.resetCount = s.resetCount := rfl
@[simp] theorem State.takeGap_trace (s : State) : s.takeGap.trace = s.trace := rfl

/-! takeDin -/

@[simp] theorem State.takeDin_cfg (s : State) : s.takeDin.cfg = s.cfg := rfl
@[simp] theorem State.takeDin_cs (s : State) : s.takeDin.cs = s.cs := rfl
@[simp] theorem State.takeDin_clk (s : State) : s.takeDin.clk = s.clk := rfl
@[simp] theorem State.takeDin_c0 (s : State) : s.takeDin.c0 = s.c0 := rfl
@[simp] theorem State.takeDin_c1 (s : State) : s.takeDin.c1 = s.c1 := rfl
@[simp] theorem State.takeDin_modeCs (s : State) : s.takeDin.modeCs = s.modeCs := rfl
@[simp] theorem State.takeDin_modeClk (s : State) : s.takeDin.modeClk = s.modeClk := rfl
@[simp] theorem State.takeDin_modeDin (s : State) : s.takeDin.modeDin = s.modeDin := rfl
@[simp] theorem State.takeDin_modeC0 (s : State) : s.takeDin.modeC0 = s.modeC0 := rfl
@[simp] theorem State.takeDin_modeC1 (s : State) : s.takeDin.modeC1 = s.modeC1 := rfl
@[simp] theorem State.takeDin_tDesel (s : State) : s.takeDin.tDesel = s.tDesel := rfl
@[simp] theorem State.takeDin_shreg (s : State) : s.takeDin.shreg = s.shreg := rfl
@[simp] theorem State.takeDin_result (s : State) : s.takeDin.result = s.result := rfl
@[simp] theorem State.takeDin_seq (s : State) : s.takeDin.seq = s.seq := rfl
@[simp] theorem State.takeDin_bitcnt (s : State) : s.takeDin.bitcnt = s.bitcnt := rfl
@[simp] theorem State.takeDin_chsel (s : State) : s.takeDin.chsel = s.chsel := rfl
@[simp] theorem State.takeDin_tReady (s : State) : s.takeDin.tReady = s.tReady := rfl
@[simp] theorem State.takeDin_time (s : State) : s.takeDin.time = s.time := rfl
@[simp] theorem State.takeDin_cmd (s : State) : s.takeDin.cmd = s.cmd := rfl
@[simp] theorem State.takeDin_agenda (s : State) : s.takeDin.agenda = s.agenda := rfl
@[simp] theorem State.takeDin_dinScript (s : State) : s.takeDin.dinScript = s.dinScript.tail := rfl
@[simp] theorem State.takeDin_gaps (s : State) : s.takeDin.gaps = s.gaps := rfl
@[simp] theorem State.takeDin_moveCount (s : State) : s.takeDin.moveCount = s.moveCount := rfl
@[simp] theorem State.takeDin_dinCount (s : State) : s.takeDin.dinCount = s.dinCount + 1 := rfl
@[simp] theorem State.takeDin_gapCount (s : State) : s.takeDin.gapCount = s.gapCount := rfl
@[simp] theorem State.takeDin_resetCount (s : State) : s.takeDin.resetCount = s.resetCount := rfl
@[simp] theorem State.takeDin_trace (s : State) : s.takeDin.trace = s.trace := rfl

/-! takeMove -/

@[simp] theorem State.takeMove_cfg (s : State) : s.takeMove.cfg = s.cfg := rfl
@[simp] theorem State.takeMove_cs (s : State) : s.takeMove.cs = s.cs := rfl
@[simp] theorem State.takeMove_clk (s : State) : s.takeMove.clk = s.clk := rfl
@[simp] theorem State.takeMove_c0 (s : State) : s.takeMove.c0 = s.c0 := rfl
@[simp] theorem State.takeMove_c1 (s : State) : s.takeMove.c1 = s.c1 := rfl
@[simp] theorem State.takeMove_modeCs (s : State) : s.takeMove.modeCs = s.modeCs := rfl
@[simp] theorem State.takeMove_modeClk (s : State) : s.takeMove.modeClk = s.modeClk := rfl
@[simp] theorem State.takeMove_modeDin (s : State) : s.takeMove.modeDin = s.modeDin := rfl
@[simp] theorem State.takeMove_modeC0 (s : State) : s.takeMove.modeC0 = s.modeC0 := rfl
@[simp] theorem State.takeMove_modeC1 (s : State) : s.takeMove.modeC1 = s.modeC1 := rfl
@[simp] theorem State.takeMove_tDesel (s : State) : s.takeMove.tDesel = s.tDesel := rfl
@[simp] theorem State.takeMove_shreg (s : State) : s.takeMove.shreg = s.shreg := rfl
@[simp] theorem State.takeMove_result (s : State) : s.takeMove.result = s.result := rfl
@[simp] theorem State.takeMove_seq (s : State) : s.takeMove.seq = s.seq := rfl
@[simp] theorem State.takeMove_bitcnt (s : State) : s.takeMove.bitcnt = s.bitcnt := rfl
@[simp] theorem State.takeMove_chsel (s : State) : s.takeMove.chsel = s.chsel := rfl
@[simp] theorem State.takeMove_tReady (s : State) : s.takeMove.tReady = s.tReady := rfl
@[simp] theorem State.takeMove_time (s : State) : s.takeMove.time = s.time := rfl
@[simp] theorem State.takeMove_cmd (s : State) : s.takeMove.cmd = s.cmd := rfl
@[simp] theorem State.takeMove_agenda (s : State) : s.takeMove.agenda = s.agenda.tail := rfl
@[simp] theorem State.takeMove_dinScript (s : State) : s.takeMove.dinScript = s.dinScript := rfl
@[simp] theorem State.takeMove_gaps (s : State) : s.takeMove.gaps = s.gaps := rfl
@[simp] theorem State.takeMove_moveCount (s : State) : s.takeMove.moveCount = s.moveCount + 1 := rfl
@[simp] theorem State.takeMove_dinCount (s : State) : s.takeMove.dinCount = s.dinCount := rfl
@[simp] theorem State.takeMove_gapCount (s : State) : s.takeMove.gapCount = s.gapCount := rfl
@[simp] theorem State.takeMove_resetCount (s : State) : s.takeMove.resetCount = s.resetCount := rfl
@[simp] theorem State.takeMove_trace (s : State) : s.takeMove.trace = s.trace := rfl

/-! endEvent -/

@[simp] theorem State.endEvent_cfg (s : State) (d : Nat) : (s.endEvent d).cfg = s.cfg := rfl
@[simp] theorem State.endEvent_cs (s : State) (d : Nat) : (s.endEvent d).cs = s.cs := rfl
@[simp] theorem State.endEvent_clk (s : State) (d : Nat) : (s.endEvent d).clk = s.clk := rfl
@[simp] theorem State.endEvent_c0 (s : State) (d : Nat) : (s.endEvent d).c0 = s.c0 := rfl
@[simp] theorem State.endEvent_c1 (s : State) (d : Nat) : (s.endEvent d).c1 = s.c1 := rfl
@[simp] theorem State.endEvent_modeCs (s : State) (d : Nat) : (s.endEvent d).modeCs = s.modeCs := rfl
@[simp] theorem State.endEvent_modeClk (s : State) (d : Nat) : (s.endEvent d).modeClk = s.modeClk := rfl
@[simp] theorem State.endEvent_modeDin (s : State) (d : Nat) : (s.endEvent d).modeDin = s.modeDin := rfl
@[simp] theorem State.endEvent_modeC0 (s : State) (d : Nat) : (s.endEvent d).modeC0 = s.modeC0 := rfl
@[simp] theorem State.endEvent_modeC1 (s : State) (d : Nat) : (s.endEvent d).modeC1 = s.modeC1 := rfl
@[simp] theorem State.endEvent_tDesel (s : State) (d : Nat) : (s.endEvent d).tDesel = s.tDesel := rfl
@[simp] theorem State.endEvent_shreg (s : State) (d : Nat) : (s.endEvent d).shreg = s.shreg := rfl
@[simp] theorem State.endEvent_result (s : State) (d : Nat) : (s.endEvent d).result = s.result := rfl
@[simp] theorem State.endEvent_seq (s : State) (d : Nat) : (s.endEvent d).seq = s.seq := rfl
@[simp] theorem State.endEvent_bitcnt (s : State) (d : Nat) : (s.endEvent d).bitcnt = s.bitcnt := rfl
@[simp] theorem State.endEvent_chsel (s : State) (d : Nat) : (s.endEvent d).chsel = s.chsel := rfl
@[simp] theorem State.endEvent_tReady (s : State) (d : Nat) : (s.endEvent d).tReady = s.time + d := rfl
@[simp] theorem State.endEvent_time (s : State) (d : Nat) : (s.endEvent d).time = s.time := rfl
@[simp] theorem State.endEvent_cmd (s : State) (d : Nat) : (s.endEvent d).cmd = s.cmd := rfl
@[simp] theorem State.endEvent_agenda (s : State) (d : Nat) : (s.endEvent d).agenda = s.agenda := rfl
@[simp] theorem State.endEvent_dinScript (s : State) (d : Nat) : (s.endEvent d).dinScript = s.dinScript := rfl
@[simp] theorem State.endEvent_gaps (s : State) (d : Nat) : (s.endEvent d).gaps = s.gaps := rfl
@[simp] theorem State.endEvent_moveCount (s : State) (d : Nat) : (s.endEvent d).moveCount = s.moveCount := rfl
@[simp] theorem State.endEvent_dinCount (s : State) (d : Nat) : (s.endEvent d).dinCount = s.dinCount := rfl
@[simp] theorem State.endEvent_gapCount (s : State) (d : Nat) : (s.endEvent d).gapCount = s.gapCount := rfl
@[simp] theorem State.endEvent_resetCount (s : State) (d : Nat) : (s.endEvent d).resetCount = s.resetCount := rfl
@[simp] theorem State.endEvent_trace (s : State) (d : Nat) : (s.endEvent d).trace = s.trace := rfl

/-! goto -/

@[simp] theorem State.goto_cfg (s : State) (q : SeqState) : (s.goto q).cfg = s.cfg := rfl
@[simp] theorem State.goto_cs (s : State) (q : SeqState) : (s.goto q).cs = s.cs := rfl
@[simp] theorem State.goto_clk (s : State) (q : SeqState) : (s.goto q).clk = s.clk := rfl
@[simp] theorem State.goto_c0 (s : State) (q : SeqState) : (s.goto q).c0 = s.c0 := rfl
@[simp] theorem State.goto_c1 (s : State) (q : SeqState) : (s.goto q).c1 = s.c1 := rfl
@[simp] theorem State.goto_modeCs (s : State) (q : SeqState) : (s.goto q).modeCs = s.modeCs := rfl
@[simp] theorem State.goto_modeClk (s : State) (q : SeqState) : (s.goto q).modeClk = s.modeClk := rfl
@[simp] theorem State.goto_modeDin (s : State) (q : SeqState) : (s.goto q).modeDin = s.modeDin := rfl
@[simp] theorem State.goto_modeC0 (s : State) (q : SeqState) : (s.goto q).modeC0 = s.modeC0 := rfl
@[simp] theorem State.goto_modeC1 (s : State) (q : SeqState) : (s.goto q).modeC1 = s.modeC1 := rfl
@[simp] theorem State.goto_tDesel (s : State) (q : SeqState) : (s.goto q).tDesel = s.tDesel := rfl
@[simp] theorem State.goto_shreg (s : State) (q : SeqState) : (s.goto q).shreg = s.shreg := rfl
@[simp] theorem State.goto_result (s : State) (q : SeqState) : (s.goto q).result = s.result := rfl
@[simp] theorem State.goto_seq (s : State) (q : SeqState) : (s.goto q).seq = q := rfl
@[simp] theorem State.goto_bitcnt (s : State) (q : SeqState) : (s.goto q).bitcnt = s.bitcnt := rfl
@[simp] theorem State.goto_chsel (s : State) (q : SeqState) : (s.goto q).chsel = s.chsel := rfl
@[simp] theorem State.goto_tReady (s : State) (q : SeqState) : (s.goto q).tReady = s.tReady := rfl
@[simp] theorem State.goto_time (s : State) (q : SeqState) : (s.goto q).time = s.time := rfl
@[simp] theorem State.goto_cmd (s : State) (q : SeqState) : (s.goto q).cmd = s.cmd := rfl
@[simp] theorem State.goto_agenda (s : State) (q : SeqState) : (s.goto q).agenda = s.agenda := rfl
@[simp] theorem State.goto_dinScript (s : State) (q : SeqState) : (s.goto q).dinScript = s.dinScript := rfl
@[simp] theorem State.goto_gaps (s : State) (q : SeqState) : (s.goto q).gaps = s.gaps := rfl
@[simp] theorem State.goto_moveCount (s : State) (q : SeqState) : (s.goto q).moveCount = s.moveCount := rfl
@[simp] theorem State.goto_dinCount (s : State) (q : SeqState) : (s.goto q).dinCount = s.dinCount := rfl
@[simp] theorem State.goto_gapCount (s : State) (q : SeqState) : (s.goto q).gapCount = s.gapCount := rfl
@[simp] theorem State.goto_resetCount (s : State) (q : SeqState) : (s.goto q).resetCount = s.resetCount := rfl
@[simp] theorem State.goto_trace (s : State) (q : SeqState) : (s.goto q).trace = s.trace := rfl

/-! idleAway -/

@[simp] theorem State.idleAway_cfg (s : State) : s.idleAway.cfg = s.cfg := by simp [State.idleAway]
@[simp] theorem State.idleAway_cs (s : State) : s.idleAway.cs = s.cs := by simp [State.idleAway]
@[simp] theorem State.idleAway_clk (s : State) : s.idleAway.clk = s.clk := by simp [State.idleAway]
@[simp] theorem State.idleAway_c0 (s : State) : s.idleAway.c0 = s.c0 := by simp [State.idleAway]
@[simp] theorem State.idleAway_c1 (s : State) : s.idleAway.c1 = s.c1 := by simp [State.idleAway]
@[simp] theorem State.idleAway_modeCs (s : State) : s.idleAway.modeCs = s.modeCs := by simp [State.idleAway]
@[simp] theorem State.idleAway_modeClk (s : State) : s.idleAway.modeClk = s.modeClk := by simp [State.idleAway]
@[simp] theorem State.idleAway_modeDin (s : State) : s.idleAway.modeDin = s.modeDin := by simp [State.idleAway]
@[simp] theorem State.idleAway_modeC0 (s : State) : s.idleAway.modeC0 = s.modeC0 := by simp [State.idleAway]
@[simp] theorem State.idleAway_modeC1 (s : State) : s.idleAway.modeC1 = s.modeC1 := by simp [State.idleAway]
@[simp] theorem State.idleAway_tDesel (s : State) : s.idleAway.tDesel = s.tDesel := by simp [State.idleAway]
@[simp] theorem State.idleAway_shreg (s : State) : s.idleAway.shreg = s.shreg := by simp [State.idleAway]
@[simp] theorem State.idleAway_result (s : State) : s.idleAway.result = s.result := by simp [State.idleAway]
@[simp] theorem State.idleAway_seq (s : State) : s.idleAway.seq = s.seq := by simp [State.idleAway]
@[simp] theorem State.idleAway_bitcnt (s : State) : s.idleAway.bitcnt = s.bitcnt := by simp [State.idleAway]
@[simp] theorem State.idleAway_chsel (s : State) : s.idleAway.chsel = s.chsel := by simp [State.idleAway]
@[simp] theorem State.idleAway_tReady (s : State) : s.idleAway.tReady = s.tReady := by simp [State.idleAway]
@[simp] theorem State.idleAway_time (s : State) : s.idleAway.time = s.time + s.gapAt 0 := by simp [State.idleAway]
@[simp] theorem State.idleAway_cmd (s : State) : s.idleAway.cmd = s.cmd := by simp [State.idleAway]
@[simp] theorem State.idleAway_agenda (s : State) : s.idleAway.agenda = s.agenda := by simp [State.idleAway]
@[simp] theorem State.idleAway_dinScript (s : State) : s.idleAway.dinScript = s.dinScript := by simp [State.idleAway]
@[simp] theorem State.idleAway_gaps (s : State) : s.idleAway.gaps = s.gaps.tail := by simp [State.idleAway]
@[simp] theorem State.idleAway_moveCount (s : State) : s.idleAway.moveCount = s.moveCount := by simp [State.idleAway]
@[simp] theorem State.idleAway_dinCount (s : State) : s.idleAway.dinCount = s.dinCount := by simp [State.idleAway]
@[simp] theorem State.idleAway_gapCount (s : State) : s.idleAway.gapCount = s.gapCount + 1 := by simp [State.idleAway]
@[simp] theorem State.idleAway_resetCount (s : State) : s.idleAway.resetCount = s.resetCount := by simp [State.idleAway]
@[simp] theorem State.idleAway_trace (s : State) : s.idleAway.trace = s.trace := by simp [State.idleAway]

/-! awaitHold -/

@[simp] theorem State.awaitHold_cfg (s : State) : s.awaitHold.cfg = s.cfg := by simp [State.awaitHold]
@[simp] theorem State.awaitHold_cs (s : State) : s.awaitHold.cs = s.cs := by simp [State.awaitHold]
@[simp] theorem State.awaitHold_clk (s : State) : s.awaitHold.clk = s.clk := by simp [State.awaitHold]
@[simp] theorem State.awaitHold_c0 (s : State) : s.awaitHold.c0 = s.c0 := by simp [State.awaitHold]
@[simp] theorem State.awaitHold_c1 (s : State) : s.awaitHold.c1 = s.c1 := by simp [State.awaitHold]
@[simp] theorem State.awaitHold_modeCs (s : State) : s.awaitHold.modeCs = s.modeCs := by simp [State.awaitHold]
@[simp] theorem State.awaitHold_modeClk (s : State) : s.awaitHold.modeClk = s.modeClk := by simp [State.awaitHold]
@[simp] theorem State.awaitHold_modeDin (s : State) : s.awaitHold.modeDin = s.modeDin := by simp [State.awaitHold]
@[simp] theorem State.awaitHold_modeC0 (s : State) : s.awaitHold.modeC0 = s.modeC0 := by simp [State.awaitHold]
@[simp] theorem State.awaitHold_modeC1 (s : State) : s.awaitHold.modeC1 = s.modeC1 := by simp [State.awaitHold]
@[simp] theorem State.awaitHold_tDesel (s : State) : s.awaitHold.tDesel = s.tDesel := by simp [State.awaitHold]
@[simp] theorem State.awaitHold_shreg (s : State) : s.awaitHold.shreg = s.shreg := by simp [State.awaitHold]
@[simp] theorem State.awaitHold_result (s : State) : s.awaitHold.result = s.result := by simp [State.awaitHold]
@[simp] theorem State.awaitHold_seq (s : State) : s.awaitHold.seq = s.seq := by simp [State.awaitHold]
@[simp] theorem State.awaitHold_bitcnt (s : State) : s.awaitHold.bitcnt = s.bitcnt := by simp [State.awaitHold]
@[simp] theorem State.awaitHold_chsel (s : State) : s.awaitHold.chsel = s.chsel := by simp [State.awaitHold]
@[simp] theorem State.awaitHold_tReady (s : State) : s.awaitHold.tReady = s.tReady := by simp [State.awaitHold]
@[simp] theorem State.awaitHold_time (s : State) : s.awaitHold.time = s.time + (s.tReady - s.time) + s.gapAt 0 := by simp [State.awaitHold]
@[simp] theorem State.awaitHold_cmd (s : State) : s.awaitHold.cmd = s.cmd := by simp [State.awaitHold]
@[simp] theorem State.awaitHold_agenda (s : State) : s.awaitHold.agenda = s.agenda := by simp [State.awaitHold]
@[simp] theorem State.awaitHold_dinScript (s : State) : s.awaitHold.dinScript = s.dinScript := by simp [State.awaitHold]
@[simp] theorem State.awaitHold_gaps (s : State) : s.awaitHold.gaps = s.gaps.tail := by simp [State.awaitHold]
@[simp] theorem State.awaitHold_moveCount (s : State) : s.awaitHold.moveCount = s.moveCount := by simp [State.awaitHold]
@[simp] theorem State.awaitHold_dinCount (s : State) : s.awaitHold.dinCount = s.dinCount := by simp [State.awaitHold]
@[simp] theorem State.awaitHold_gapCount (s : State) : s.awaitHold.gapCount = s.gapCount + 1 := by simp [State.awaitHold]
@[simp] theorem State.awaitHold_resetCount (s : State) : s.awaitHold.resetCount = s.resetCount := by simp [State.awaitHold]
@[simp] theorem State.awaitHold_trace (s : State) : s.awaitHold.trace = s.trace := by simp [State.awaitHold]

/-! awaitDeadTime -/

@[simp] theorem State.awaitDeadTime_cfg (s : State) : s.awaitDeadTime.cfg = s.cfg := by simp [State.awaitDeadTime]
@[simp] theorem State.awaitDeadTime_cs (s : State) : s.awaitDeadTime.cs = s.cs := by simp [State.awaitDeadTime]
@[simp] theorem State.awaitDeadTime_clk (s : State) : s.awaitDeadTime.clk = s.clk := by simp [State.awaitDeadTime]
@[simp] theorem State.awaitDeadTime_c0 (s : State) : s.awaitDeadTime.c0 = s.c0 := by simp [State.awaitDeadTime]
@[simp] theorem State.awaitDeadTime_c1 (s : State) : s.awaitDeadTime.c1 = s.c1 := by simp [State.awaitDeadTime]
@[simp] theorem State.awaitDeadTime_modeCs (s : State) : s.awaitDeadTime.modeCs = s.modeCs := by simp [State.awaitDeadTime]
@[simp] theorem State.awaitDeadTime_modeClk (s : State) : s.awaitDeadTime.modeClk = s.modeClk := by simp [State.awaitDeadTime]
@[simp] theorem State.awaitDeadTime_modeDin (s : State) : s.awaitDeadTime.modeDin = s.modeDin := by simp [State.awaitDeadTime]
@[simp] theorem State.awaitDeadTime_modeC0 (s : State) : s.awaitDeadTime.modeC0 = s.modeC0 := by simp [State.awaitDeadTime]
@[simp] theorem State.awaitDeadTime_modeC1 (s : State) : s.awaitDeadTime.modeC1 = s.modeC1 := by simp [State.awaitDeadTime]
@[simp] theorem State.awaitDeadTime_tDesel (s : State) : s.awaitDeadTime.tDesel = s.tDesel := by simp [State.awaitDeadTime]
@[simp] theorem State.awaitDeadTime_shreg (s : State) : s.awaitDeadTime.shreg = s.shreg := by simp [State.awaitDeadTime]
@[simp] theorem State.awaitDeadTime_result (s : State) : s.awaitDeadTime.result = s.result := by simp [State.awaitDeadTime]
@[simp] theorem State.awaitDeadTime_seq (s : State) : s.awaitDeadTime.seq = s.seq := by simp [State.awaitDeadTime]
@[simp] theorem State.awaitDeadTime_bitcnt (s : State) : s.awaitDeadTime.bitcnt = s.bitcnt := by simp [State.awaitDeadTime]
@[simp] theorem State.awaitDeadTime_chsel (s : State) : s.awaitDeadTime.chsel = s.chsel := by simp [State.awaitDeadTime]
@[simp] theorem State.awaitDeadTime_tReady (s : State) : s.awaitDeadTime.tReady = s.tReady := by simp [State.awaitDeadTime]
@[simp] theorem State.awaitDeadTime_time (s : State) : s.awaitDeadTime.time = s.awaitHold.time + deadTimeLeft s.cfg s.awaitHold.now s.tDesel := by simp [State.awaitDeadTime]
@[simp] theorem State.awaitDeadTime_cmd (s : State) : s.awaitDeadTime.cmd = s.cmd := by simp [State.awaitDeadTime]
@[simp] theorem State.awaitDeadTime_agenda (s : State) : s.awaitDeadTime.agenda = s.agenda := by simp [State.awaitDeadTime]
@[simp] theorem State.awaitDeadTime_dinScript (s : State) : s.awaitDeadTime.dinScript = s.dinScript := by simp [State.awaitDeadTime]
@[simp] theorem State.awaitDeadTime_gaps (s : State) : s.awaitDeadTime.gaps = s.gaps.tail := by simp [State.awaitDeadTime]
@[simp] theorem State.awaitDeadTime_moveCount (s : State) : s.awaitDeadTime.moveCount = s.moveCount := by simp [State.awaitDeadTime]
@[simp] theorem State.awaitDeadTime_dinCount (s : State) : s.awaitDeadTime.dinCount = s.dinCount := by simp [State.awaitDeadTime]
@[simp] theorem State.awaitDeadTime_gapCount (s : State) : s.awaitDeadTime.gapCount = s.gapCount + 1 := by simp [State.awaitDeadTime]
@[simp] theorem State.awaitDeadTime_resetCount (s : State) : s.awaitDeadTime.resetCount = s.resetCount := by simp [State.awaitDeadTime]
@[simp] theorem State.awaitDeadTime_trace (s : State) : s.awaitDeadTime.trace = s.trace := by simp [State.awaitDeadTime]

/-! await -/

@[simp] theorem State.await_cfg (s : State) : s.await.cfg = s.cfg := by
  unfold State.await; split <;> simp
@[simp] theorem State.await_cs (s : State) : s.await.cs = s.cs := by
  unfold State.await; split <;> simp
@[simp] theorem State.await_clk (s : State) : s.await.clk = s.clk := by
  unfold State.await; split <;> simp
@[simp] theorem State.await_c0 (s : State) : s.await.c0 = s.c0 := by
  unfold State.await; split <;> simp
@[simp] theorem State.await_c1 (s : State) : s.await.c1 = s.c1 := by
  unfold State.await; split <;> simp
@[simp] theorem State.await_modeCs (s : State) : s.await.modeCs = s.modeCs := by
  unfold State.await; split <;> simp
@[simp] theorem State.await_modeClk (s : State) : s.await.modeClk = s.modeClk := by
  unfold State.await; split <;> simp
@[simp] theorem State.await_modeDin (s : State) : s.await.modeDin = s.modeDin := by
  unfold State.await; split <;> simp
@[simp] theorem State.await_modeC0 (s : State) : s.await.modeC0 = s.modeC0 := by
  unfold State.await; split <;> simp
@[simp] theorem State.await_modeC1 (s : State) : s.await.modeC1 = s.modeC1 := by
  unfold State.await; split <;> simp
@[simp] theorem State.await_tDesel (s : State) : s.await.tDesel = s.tDesel := by
  unfold State.await; split <;> simp
@[simp] theorem State.await_shreg (s : State) : s.await.shreg = s.shreg := by
  unfold State.await; split <;> simp
@[simp] theorem State.await_result (s : State) : s.await.result = s.result := by
  unfold State.await; split <;> simp
@[simp] theorem State.await_seq (s : State) : s.await.seq = s.seq := by
  unfold State.await; split <;> simp
@[simp] theorem State.await_bitcnt (s : State) : s.await.bitcnt = s.bitcnt := by
  unfold State.await; split <;> simp
@[simp] theorem State.await_chsel (s : State) : s.await.chsel = s.chsel := by
  unfold State.await; split <;> simp
@[simp] theorem State.await_tReady (s : State) : s.await.tReady = s.tReady := by
  unfold State.await; split <;> simp
@[simp] theorem State.await_cmd (s : State) : s.await.cmd = s.cmd := by
  unfold State.await; split <;> simp
@[simp] theorem State.await_agenda (s : State) : s.await.agenda = s.agenda := by
  unfold State.await; split <;> simp
@[simp] theorem State.await_dinScript (s : State) : s.await.dinScript = s.dinScript := by
  unfold State.await; split <;> simp
@[simp] theorem State.await_gaps (s : State) : s.await.gaps = s.gaps.tail := by
  unfold State.await; split <;> simp
@[simp] theorem State.await_moveCount (s : State) : s.await.moveCount = s.moveCount := by
  unfold State.await; split <;> simp
@[simp] theorem State.await_dinCount (s : State) : s.await.dinCount = s.dinCount := by
  unfold State.await; split <;> simp
@[simp] theorem State.await_gapCount (s : State) : s.await.gapCount = s.gapCount + 1 := by
  unfold State.await; split <;> simp
@[simp] theorem State.await_resetCount (s : State) : s.await.resetCount = s.resetCount := by
  unfold State.await; split <;> simp
@[simp] theorem State.await_trace (s : State) : s.await.trace = s.trace := by
  unfold State.await; split <;> simp

/-! setMode -/

@[simp] theorem State.setMode_cfg (s : State) (p : Pin) (m : PinMode) :
    (s.setMode p m).cfg = s.cfg := by cases p <;> rfl
@[simp] theorem State.setMode_cs (s : State) (p : Pin) (m : PinMode) :
    (s.setMode p m).cs = s.cs := by cases p <;> rfl
@[simp] theorem State.setMode_clk (s : State) (p : Pin) (m : PinMode) :
    (s.setMode p m).clk = s.clk := by cases p <;> rfl
@[simp] theorem State.setMode_c0 (s : State) (p : Pin) (m : PinMode) :
    (s.setMode p m).c0 = s.c0 := by cases p <;> rfl
@[simp] theorem State.setMode_c1 (s : State) (p : Pin) (m : PinMode) :
    (s.setMode p m).c1 = s.c1 := by cases p <;> rfl
@[simp] theorem State.setMode_modeCs (s : State) (p : Pin) (m : PinMode) :
    (s.setMode p m).modeCs = if p = .cs then m else s.modeCs := by cases p <;> rfl
@[simp] theorem State.setMode_modeClk (s : State) (p : Pin) (m : PinMode) :
    (s.setMode p m).modeClk = if p = .clk then m else s.modeClk := by cases p <;> rfl
@[simp] theorem State.setMode_modeDin (s : State) (p : Pin) (m : PinMode) :
    (s.setMode p m).modeDin = if p = .din then m else s.modeDin := by cases p <;> rfl
@[simp] theorem State.setMode_modeC0 (s : State) (p : Pin) (m : PinMode) :
    (s.setMode p m).modeC0 = if p = .c0 then m else s.modeC0 := by cases p <;> rfl
@[simp] theorem State.setMode_modeC1 (s : State) (p : Pin) (m : PinMode) :
    (s.setMode p m).modeC1 = if p = .c1 then m else s.modeC1 := by cases p <;> rfl
@[simp] theorem State.setMode_tDesel (s : State) (p : Pin) (m : PinMode) :
    (s.setMode p m).tDesel = s.tDesel := by cases p <;> rfl
@[simp] theorem State.setMode_shreg (s : State) (p : Pin) (m : PinMode) :
    (s.setMode p m).shreg = s.shreg := by cases p <;> rfl
@[simp] theorem State.setMode_result (s : State) (p : Pin) (m : PinMode) :
    (s.setMode p m).result = s.result := by cases p <;> rfl
@[simp] theorem State.setMode_seq (s : State) (p : Pin) (m : PinMode) :
    (s.setMode p m).seq = s.seq := by cases p <;> rfl
@[simp] theorem State.setMode_bitcnt (s : State) (p : Pin) (m : PinMode) :
    (s.setMode p m).bitcnt = s.bitcnt := by cases p <;> rfl
@[simp] theorem State.setMode_chsel (s : State) (p : Pin) (m : PinMode) :
    (s.setMode p m).chsel = s.chsel := by cases p <;> rfl
@[simp] theorem State.setMode_tReady (s : State) (p : Pin) (m : PinMode) :
    (s.setMode p m).tReady = s.tReady := by cases p <;> rfl
@[simp] theorem State.setMode_time (s : State) (p : Pin) (m : PinMode) :
    (s.setMode p m).time = s.time := by cases p <;> rfl
@[simp] theorem State.setMode_cmd (s : State) (p : Pin) (m : PinMode) :
    (s.setMode p m).cmd = s.cmd := by cases p <;> rfl
@[simp] theorem State.setMode_agenda (s : State) (p : Pin) (m : PinMode) :
    (s.setMode p m).agenda = s.agenda := by cases p <;> rfl
@[simp] theorem State.setMode_dinScript (s : State) (p : Pin) (m : PinMode) :
    (s.setMode p m).dinScript = s.dinScript := by cases p <;> rfl
@[simp] theorem State.setMode_gaps (s : State) (p : Pin) (m : PinMode) :
    (s.setMode p m).gaps = s.gaps := by cases p <;> rfl
@[simp] theorem State.setMode_moveCount (s : State) (p : Pin) (m : PinMode) :
    (s.setMode p m).moveCount = s.moveCount := by cases p <;> rfl
@[simp] theorem State.setMode_dinCount (s : State) (p : Pin) (m : PinMode) :
    (s.setMode p m).dinCount = s.dinCount := by cases p <;> rfl
@[simp] theorem State.setMode_gapCount (s : State) (p : Pin) (m : PinMode) :
    (s.setMode p m).gapCount = s.gapCount := by cases p <;> rfl
@[simp] theorem State.setMode_resetCount (s : State) (p : Pin) (m : PinMode) :
    (s.setMode p m).resetCount = s.resetCount := by cases p <;> rfl
@[simp] theorem State.setMode_trace (s : State) (p : Pin) (m : PinMode) :
    (s.setMode p m).trace = s.trace := by cases p <;> rfl

/-! setLatch -/

@[simp] theorem State.setLatch_cfg (s : State) (p : Pin) (v : Bit) :
    (s.setLatch p v).cfg = s.cfg := by cases p <;> rfl
@[simp] theorem State.setLatch_cs (s : State) (p : Pin) (v : Bit) :
    (s.setLatch p v).cs = if p = .cs then v else s.cs := by cases p <;> rfl
@[simp] theorem State.setLatch_clk (s : State) (p : Pin) (v : Bit) :
    (s.setLatch p v).clk = if p = .clk then v else s.clk := by cases p <;> rfl
@[simp] theorem State.setLatch_c0 (s : State) (p : Pin) (v : Bit) :
    (s.setLatch p v).c0 = if p = .c0 then v else s.c0 := by cases p <;> rfl
@[simp] theorem State.setLatch_c1 (s : State) (p : Pin) (v : Bit) :
    (s.setLatch p v).c1 = if p = .c1 then v else s.c1 := by cases p <;> rfl
@[simp] theorem State.setLatch_modeCs (s : State) (p : Pin) (v : Bit) :
    (s.setLatch p v).modeCs = s.modeCs := by cases p <;> rfl
@[simp] theorem State.setLatch_modeClk (s : State) (p : Pin) (v : Bit) :
    (s.setLatch p v).modeClk = s.modeClk := by cases p <;> rfl
@[simp] theorem State.setLatch_modeDin (s : State) (p : Pin) (v : Bit) :
    (s.setLatch p v).modeDin = s.modeDin := by cases p <;> rfl
@[simp] theorem State.setLatch_modeC0 (s : State) (p : Pin) (v : Bit) :
    (s.setLatch p v).modeC0 = s.modeC0 := by cases p <;> rfl
@[simp] theorem State.setLatch_modeC1 (s : State) (p : Pin) (v : Bit) :
    (s.setLatch p v).modeC1 = s.modeC1 := by cases p <;> rfl
@[simp] theorem State.setLatch_tDesel (s : State) (p : Pin) (v : Bit) :
    (s.setLatch p v).tDesel = s.tDesel := by cases p <;> rfl
@[simp] theorem State.setLatch_shreg (s : State) (p : Pin) (v : Bit) :
    (s.setLatch p v).shreg = s.shreg := by cases p <;> rfl
@[simp] theorem State.setLatch_result (s : State) (p : Pin) (v : Bit) :
    (s.setLatch p v).result = s.result := by cases p <;> rfl
@[simp] theorem State.setLatch_seq (s : State) (p : Pin) (v : Bit) :
    (s.setLatch p v).seq = s.seq := by cases p <;> rfl
@[simp] theorem State.setLatch_bitcnt (s : State) (p : Pin) (v : Bit) :
    (s.setLatch p v).bitcnt = s.bitcnt := by cases p <;> rfl
@[simp] theorem State.setLatch_chsel (s : State) (p : Pin) (v : Bit) :
    (s.setLatch p v).chsel = s.chsel := by cases p <;> rfl
@[simp] theorem State.setLatch_tReady (s : State) (p : Pin) (v : Bit) :
    (s.setLatch p v).tReady = s.tReady := by cases p <;> rfl
@[simp] theorem State.setLatch_time (s : State) (p : Pin) (v : Bit) :
    (s.setLatch p v).time = s.time := by cases p <;> rfl
@[simp] theorem State.setLatch_cmd (s : State) (p : Pin) (v : Bit) :
    (s.setLatch p v).cmd = s.cmd := by cases p <;> rfl
@[simp] theorem State.setLatch_agenda (s : State) (p : Pin) (v : Bit) :
    (s.setLatch p v).agenda = s.agenda := by cases p <;> rfl
@[simp] theorem State.setLatch_dinScript (s : State) (p : Pin) (v : Bit) :
    (s.setLatch p v).dinScript = s.dinScript := by cases p <;> rfl
@[simp] theorem State.setLatch_gaps (s : State) (p : Pin) (v : Bit) :
    (s.setLatch p v).gaps = s.gaps := by cases p <;> rfl
@[simp] theorem State.setLatch_moveCount (s : State) (p : Pin) (v : Bit) :
    (s.setLatch p v).moveCount = s.moveCount := by cases p <;> rfl
@[simp] theorem State.setLatch_dinCount (s : State) (p : Pin) (v : Bit) :
    (s.setLatch p v).dinCount = s.dinCount := by cases p <;> rfl
@[simp] theorem State.setLatch_gapCount (s : State) (p : Pin) (v : Bit) :
    (s.setLatch p v).gapCount = s.gapCount := by cases p <;> rfl
@[simp] theorem State.setLatch_resetCount (s : State) (p : Pin) (v : Bit) :
    (s.setLatch p v).resetCount = s.resetCount := by cases p <;> rfl
@[simp] theorem State.setLatch_trace (s : State) (p : Pin) (v : Bit) :
    (s.setLatch p v).trace = s.trace := by cases p <;> rfl

/-! resetEvent: what 10_state.md R33 gives, and what goes on -/

@[simp] theorem State.resetEvent_cfg (s : State) : s.resetEvent.cfg = s.cfg := rfl
@[simp] theorem State.resetEvent_cs (s : State) : s.resetEvent.cs = Config.freeResetLatch .cs s.resetCount := rfl
@[simp] theorem State.resetEvent_clk (s : State) : s.resetEvent.clk = Config.freeResetLatch .clk s.resetCount := rfl
@[simp] theorem State.resetEvent_c0 (s : State) : s.resetEvent.c0 = Config.freeResetLatch .c0 s.resetCount := rfl
@[simp] theorem State.resetEvent_c1 (s : State) : s.resetEvent.c1 = Config.freeResetLatch .c1 s.resetCount := rfl
@[simp] theorem State.resetEvent_modeCs (s : State) : s.resetEvent.modeCs = .unconfigured := rfl
@[simp] theorem State.resetEvent_modeClk (s : State) : s.resetEvent.modeClk = .unconfigured := rfl
@[simp] theorem State.resetEvent_modeDin (s : State) : s.resetEvent.modeDin = .unconfigured := rfl
@[simp] theorem State.resetEvent_modeC0 (s : State) : s.resetEvent.modeC0 = .unconfigured := rfl
@[simp] theorem State.resetEvent_modeC1 (s : State) : s.resetEvent.modeC1 = .unconfigured := rfl
@[simp] theorem State.resetEvent_tDesel (s : State) : s.resetEvent.tDesel = Config.tSentinel := rfl
@[simp] theorem State.resetEvent_shreg (s : State) : s.resetEvent.shreg = Config.freeResetShreg s.resetCount := rfl
@[simp] theorem State.resetEvent_result (s : State) : s.resetEvent.result = Config.freeResetResult s.resetCount := rfl
@[simp] theorem State.resetEvent_seq (s : State) : s.resetEvent.seq = .idle0 := rfl
@[simp] theorem State.resetEvent_bitcnt (s : State) : s.resetEvent.bitcnt = Config.freeResetBitcnt s.resetCount := rfl
@[simp] theorem State.resetEvent_chsel (s : State) : s.resetEvent.chsel = Config.freeResetChsel s.resetCount := rfl
@[simp] theorem State.resetEvent_tReady (s : State) : s.resetEvent.tReady = 0 := rfl
@[simp] theorem State.resetEvent_time (s : State) : s.resetEvent.time = s.time := rfl
@[simp] theorem State.resetEvent_cmd (s : State) : s.resetEvent.cmd = none := rfl
@[simp] theorem State.resetEvent_agenda (s : State) : s.resetEvent.agenda = s.agenda := rfl
@[simp] theorem State.resetEvent_dinScript (s : State) : s.resetEvent.dinScript = s.dinScript := rfl
@[simp] theorem State.resetEvent_gaps (s : State) : s.resetEvent.gaps = s.gaps := rfl
@[simp] theorem State.resetEvent_moveCount (s : State) : s.resetEvent.moveCount = s.moveCount := rfl
@[simp] theorem State.resetEvent_dinCount (s : State) : s.resetEvent.dinCount = s.dinCount := rfl
@[simp] theorem State.resetEvent_gapCount (s : State) : s.resetEvent.gapCount = s.gapCount := rfl
@[simp] theorem State.resetEvent_resetCount (s : State) : s.resetEvent.resetCount = s.resetCount + 1 := rfl
@[simp] theorem State.resetEvent_trace (s : State) : s.resetEvent.trace = s.trace ++ [(s.time, .reset)] := rfl

end Sys2Proof.Machine
end

