-- ==== Sys2Proof/Laws/Ops.lean ====
section
/-! SUPPORT. What each shared operation can do, said once: composing outcomes, the pin space, the effects of the events, and
a micro-step. Later proofs cite these and unfold none of them. -/

namespace Sys2Proof.Machine

/-! Composing outcomes -/

@[simp] theorem andThen_next (s : State) (f : State → Result) : Result.andThen (.next s) f = f s := rfl

@[simp] theorem andThen_refused (e : Refusal) (f : State → Result) : Result.andThen (.refused e) f = .refused e := rfl

/-- A composition that answers a next state went through one. -/
theorem andThen_eq_next {r : Result} {f : State → Result} {t : State} (h : r.andThen f = .next t) :
    ∃ u, r = .next u ∧ f u = .next t := by
  cases r with
  | next u => exact ⟨u, rfl, h⟩
  | fault e => cases e
  | refused e => cases h

theorem andThen_assoc (r : Result) (f g : State → Result) :
    (r.andThen f).andThen g = r.andThen fun s => (f s).andThen g := by
  cases r <;> rfl

@[simp] theorem runLines_nil (s : State) : runLines [] s = .next s := rfl

@[simp] theorem runLines_cons (l : State → Result) (ls : List (State → Result)) (s : State) :
    runLines (l :: ls) s = (l s).andThen (runLines ls) := rfl

theorem runLines_append (xs ys : List (State → Result)) (s : State) :
    runLines (xs ++ ys) s = (runLines xs s).andThen (runLines ys) := by
  induction xs generalizing s with
  | nil => rfl
  | cons x xs ih =>
    simp only [List.cons_append, runLines_cons, andThen_assoc]
    congr 1
    funext u
    exact ih u

/-! Pins -/

/-- PinWrite on an output of the instance (20_memory.md R52). -/
theorem pinWrite_output {p : Pin} {v : Bit} {s : State} (hp : s.cfg.hasPin p = true) (hd : neededMode p = .output)
    (hm : s.mode p = .output) : pinWrite p v s = .next ((s.setLatch p v).record (.write p v)) := by
  simp [pinWrite, hp, hd, hm]

/-- Everything PinWrite can answer with a next state. -/
theorem pinWrite_eq_next {p : Pin} {v : Bit} {s t : State} (h : pinWrite p v s = .next t) :
    s.cfg.hasPin p = true ∧ neededMode p = .output ∧ s.mode p = .output ∧
      t = (s.setLatch p v).record (.write p v) := by
  unfold pinWrite at h
  split at h
  · next hc => exact ⟨hc.1, hc.2.1, hc.2.2, by cases h; rfl⟩
  · cases h

/-- PinRead of a configured DIN (R54). -/
theorem pinRead_pullUp {use : Bit → State → Result} {s : State} (h : s.modeDin = .inputPullup) :
    pinRead use s = use (s.dinAt 0) (s.takeDin.record (.read (s.dinAt 0))) := by
  simp [pinRead, h]

/-- What Ready says (10_state.md R23). -/
theorem ready_iff (s : State) : s.ready = true ↔
    s.modeDin = .inputPullup ∧ s.modeCs = .output ∧ s.modeClk = .output ∧
      (s.cfg.hasChan = true → s.modeC0 = .output ∧ s.modeC1 = .output) := by
  cases hc : s.cfg.hasChan <;> simp [State.ready, hc, and_assoc]

/-! The effects of the events, each with the state it leaves -/

theorem acceptEffect_eq (opd : Byte) (s : State) : acceptEffect opd s = .next { s with
    chsel := if s.cfg.hasChan then chanOf s.cfg opd else s.chsel
    cmd := none
    tReady := s.time
    trace := s.trace ++ [(s.time, .accept (cmd16 0x02 opd))] } := rfl

theorem chset0Effect_eq {s : State} (hc : s.cfg.hasChan = true) (hm : s.modeC0 = .output) :
    chset0Effect s = .next { s with
      c0 := chanLevel0 s.chsel
      tReady := s.time
      trace := s.trace ++ [(s.time, .write .c0 (chanLevel0 s.chsel))] } := by
  rw [chset0Effect, pinWrite_output (p := .c0) (by simp [Params.hasPin, hc]) rfl hm]; rfl

theorem chset1Effect_eq {s : State} (hc : s.cfg.hasChan = true) (hm : s.modeC1 = .output) :
    chset1Effect s = .next { s with
      c1 := chanLevel1 s.chsel
      tReady := s.time + s.cfg.tChSetup
      trace := s.trace ++ [(s.time, .write .c1 (chanLevel1 s.chsel))] } := by
  rw [chset1Effect, pinWrite_output (p := .c1) (by simp [Params.hasPin, hc]) rfl hm]; rfl

theorem dtpassEffect_eq (s : State) : dtpassEffect s = .next { s with
    tReady := s.time
    trace := s.trace ++ [(s.time, .now s.now)] } := rfl

theorem selectEffect_eq {s : State} (hm : s.modeCs = .output) : selectEffect s = .next { s with
    cs := low
    shreg := 0
    bitcnt := 0
    tReady := s.time + s.cfg.tCss
    trace := s.trace ++ [(s.time, .write .cs low)] } := by
  rw [selectEffect, pinWrite_output (p := .cs) rfl rfl hm]; rfl

theorem riseEffect_eq {s : State} (hm : s.modeClk = .output) : riseEffect s = .next { s with
    clk := high
    tReady := s.time + s.cfg.tCkh
    trace := s.trace ++ [(s.time, .write .clk high)] } := by
  rw [riseEffect, pinWrite_output (p := .clk) rfl rfl hm]; rfl

theorem fallEffect_eq {s : State} (hm : s.modeClk = .output) : fallEffect s = .next { s with
    clk := low
    tReady := s.time
    trace := s.trace ++ [(s.time, .write .clk low)] } := by
  rw [fallEffect, pinWrite_output (p := .clk) rfl rfl hm]; rfl

theorem startSampleEffect_eq {s : State} (hm : s.modeDin = .inputPullup) : startSampleEffect s = .next { s with
    tReady := s.time + s.cfg.tCkl
    dinScript := s.dinScript.tail
    dinCount := s.dinCount + 1
    trace := s.trace ++ [(s.time, .read (s.dinAt 0))] } := by
  rw [startSampleEffect, pinRead_pullUp hm]; rfl

theorem dataSampleEffect_eq {s : State} (hm : s.modeDin = .inputPullup) (hk : s.bitcnt.toNat < Config.nData) :
    dataSampleEffect s = .next { s with
      shreg := shiftIn s.shreg (s.dinAt 0)
      bitcnt := s.bitcnt + 1
      tReady := s.time + s.cfg.tCkl
      dinScript := s.dinScript.tail
      dinCount := s.dinCount + 1
      trace := s.trace ++ [(s.time, .read (s.dinAt 0))] } := by
  rw [dataSampleEffect, if_pos hk, pinRead_pullUp hm]; rfl

theorem stopSampleEffect_eq {s : State} (hm : s.modeDin = .inputPullup) : stopSampleEffect s = .next { s with
    tReady := s.time
    dinScript := s.dinScript.tail
    dinCount := s.dinCount + 1
    trace := s.trace ++ [(s.time, .read (s.dinAt 0))] } := by
  rw [stopSampleEffect, pinRead_pullUp hm]; rfl

theorem deselectEffect_eq {s : State} (hm : s.modeCs = .output) : deselectEffect s = .next { s with
    cs := high
    tReady := s.time
    trace := s.trace ++ [(s.time, .write .cs high)] } := by
  rw [deselectEffect, pinWrite_output (p := .cs) rfl rfl hm]; rfl

theorem stampEffect_eq (s : State) : stampEffect s = .next { s with
    tDesel := s.now
    result := s.shreg
    tReady := s.time
    trace := s.trace ++ [(s.time, .stamp s.now s.shreg)] } := rfl

/-! A micro-step -/

/-- A micro-step that is enabled does its effect and goes on to its next state (41_sequencer_phases.md R110). -/
theorem microStep_enabled {q q' : SeqState} {g : Bool} {f : State → Result} {s t : State} (hq : s.seq = q)
    (ht : s.tReady ≤ s.time) (hg : g = true) (hf : f s = .next t) : microStep q g f q' s = .next (t.goto q') := by
  simp [microStep, hq, ht, hg, hf]

/-- A micro-step that is not enabled lets time pass (R110, R127). -/
theorem microStep_disabled {q q' : SeqState} {g : Bool} {f : State → Result} {s : State}
    (h : ¬(s.seq = q ∧ s.tReady ≤ s.time ∧ g = true)) : microStep q g f q' s = .next s.idleAway := by
  simp only [microStep, if_neg h]

/-- Everything a micro-step can answer with a next state. -/
theorem microStep_eq_next {q q' : SeqState} {g : Bool} {f : State → Result} {s t : State}
    (h : microStep q g f q' s = .next t) :
    (s.seq = q ∧ s.tReady ≤ s.time ∧ g = true ∧ ∃ u, f s = .next u ∧ t = u.goto q') ∨
    (¬(s.seq = q ∧ s.tReady ≤ s.time ∧ g = true) ∧ t = s.idleAway) := by
  unfold microStep at h
  split at h
  · next hc =>
    obtain ⟨u, hu, hn⟩ := andThen_eq_next h
    exact .inl ⟨hc.1, hc.2.1, hc.2.2, u, hu, by cases hn; rfl⟩
  · next hc => exact .inr ⟨hc, by cases h; rfl⟩

/-- Letting time pass leaves the engine alone (R127). -/
theorem sameEngine_idleAway (s : State) : SameEngine s s.idleAway := rfl

/-- Waiting, for whatever it is, leaves the engine alone (R127). -/
theorem sameEngine_await (s : State) : SameEngine s s.await := by
  unfold SameEngine
  ext1 <;> simp

/-! Waiting -/

/-- After waiting for a hold it is over (20_memory.md R57). -/
theorem tReady_le_awaitHold (s : State) : s.awaitHold.tReady ≤ s.awaitHold.time := by
  simp; omega

/-- Time does not go back while waiting. -/
theorem time_le_awaitHold (s : State) : s.time ≤ s.awaitHold.time := by
  simp; omega

/-! The dead-time test -/

/-- Elapsed as a number (42_datapath_primitives.md R142). -/
theorem elapsed_toNat (w now last : Nat) : (elapsed w now last).toNat = (now + (2 ^ w - last % 2 ^ w)) % 2 ^ w := by
  simp only [elapsed, BitVec.toNat_sub, BitVec.toNat_ofNat]
  rw [Nat.add_comm, Nat.mod_add_mod]

/-- Taking NOW of the first argument changes nothing. -/
theorem elapsed_mod (w t last : Nat) : elapsed w (t % 2 ^ w) last = elapsed w t last := by
  have : BitVec.ofNat w (t % 2 ^ w) = BitVec.ofNat w t := BitVec.eq_of_toNat_eq (by simp)
  rw [elapsed, this, elapsed]

/-- Letting time pass adds to the elapsed time, modulo 2^W_T. -/
theorem elapsed_add (w t d last : Nat) :
    (elapsed w (t + d) last).toNat = ((elapsed w t last).toNat + d) % 2 ^ w := by
  rw [elapsed_toNat, elapsed_toNat, Nat.mod_add_mod]
  congr 1; omega

/-- Once the time that is left has passed the dead-time test passes (R102, R114). -/
theorem deadTimeOk_after_left (c : Params) (t last : Nat) :
    deadTimeOk c (nowAt c (t + deadTimeLeft c (nowAt c t) last)) last = true := by
  have hlt := c.tCsh_lt
  simp only [deadTimeOk, deadTimeLeft, nowAt, elapsed_mod, decide_eq_true_eq, elapsed_add]
  by_cases h : c.tCsh ≤ (elapsed c.wT t last).toNat
  · have hb := (elapsed c.wT t last).isLt
    rw [Nat.sub_eq_zero_of_le h, Nat.add_zero, Nat.mod_eq_of_lt hb]; exact h
  · rw [Nat.add_sub_cancel' (by omega), Nat.mod_eq_of_lt hlt]

/-- After the wait of (DEAD_TIME_WAIT, 0) the dead-time test passes. -/
theorem deadTimeOk_awaitDeadTime (s : State) : deadTimeOk s.cfg s.awaitDeadTime.now s.tDesel = true :=
  deadTimeOk_after_left s.cfg s.awaitHold.time s.tDesel

/-- After waiting no hold is pending (20_memory.md R57). -/
theorem tReady_le_await (s : State) : s.await.tReady ≤ s.await.time := by
  unfold State.await
  split
  · simp; omega
  · exact tReady_le_awaitHold s

/-- Without slack, waiting ends at the earliest time of the next event (30_encoding.md R81). -/
theorem await_time_of_no_slack {s : State} (h : s.gapAt 0 = 0) : s.await.time = s.nextEventTime := by
  have hm : s.time + (s.tReady - s.time) = max s.time s.tReady := by omega
  unfold State.await State.nextEventTime
  split <;> simp [State.now, h, hm]

end Sys2Proof.Machine
end

