-- ==== Sys2Proof/Laws/Conversion.lean ====
section
/-! SUPPORT. The lines of CONV (40_host_commands.md R94), each with what it does and what it keeps: a state is reached, at a
time no earlier than the pending hold allows, and the trace has grown by the line's events. -/

namespace Sys2Proof.Machine

/-- What every line of a conversion keeps. -/
structure Kept (s t : State) : Prop where
  cfg : t.cfg = s.cfg
  mode : ∀ p, t.mode p = s.mode p
  seq : t.seq = s.seq
  chsel : t.chsel = s.chsel
  cmd : t.cmd = s.cmd
  agenda : t.agenda = s.agenda
  moveCount : t.moveCount = s.moveCount
  resetCount : t.resetCount = s.resetCount

theorem Kept.refl (s : State) : Kept s s := by constructor <;> simp

theorem Kept.trans {s t u : State} (h : Kept s t) (k : Kept t u) : Kept s u where
  cfg := k.cfg.trans h.cfg
  mode p := (k.mode p).trans (h.mode p)
  seq := k.seq.trans h.seq
  chsel := k.chsel.trans h.chsel
  cmd := k.cmd.trans h.cmd
  agenda := k.agenda.trans h.agenda
  moveCount := k.moveCount.trans h.moveCount
  resetCount := k.resetCount.trans h.resetCount

/-- Ready depends on the modes and the parameters alone. -/
theorem Kept.ready {s t : State} (h : Kept s t) (hr : s.ready = true) : t.ready = true := by
  have hm := h.mode
  have hc := h.cfg
  rw [ready_iff] at hr ⊢
  refine ⟨(hm .din).trans hr.1, (hm .cs).trans hr.2.1, (hm .clk).trans hr.2.2.1, fun hh => ?_⟩
  rw [hc] at hh
  exact ⟨(hm .c0).trans (hr.2.2.2 hh).1, (hm .c1).trans (hr.2.2.2 hh).2⟩

/-- What one line does beside `Kept`: when it happens, the hold it ends with, its trace entry, and the data path. `reads` is 1
for a line that reads DIN. -/
structure LineOf (hold : Nat) (e : Nat → Event) (reads : Nat) (s t : State) : Prop where
  kept : Kept s t
  time_le : s.time ≤ t.time
  ready_le : s.tReady ≤ t.time
  tReady : t.tReady = t.time + hold
  trace : t.trace = s.trace ++ [(t.time, e t.time)]
  dinAt : ∀ k, t.dinAt k = s.dinAt (k + reads)

/-- The registers a line of the data path keeps. -/
structure SameData (s t : State) : Prop where
  shreg : t.shreg = s.shreg
  bitcnt : t.bitcnt = s.bitcnt
  tDesel : t.tDesel = s.tDesel
  result : t.result = s.result
  c0 : t.c0 = s.c0
  c1 : t.c1 = s.c1

theorem dinAt_tail {s t : State} (h : t.dinScript = s.dinScript.tail) (hc : t.dinCount = s.dinCount + 1) (k : Nat) :
    t.dinAt k = s.dinAt (k + 1) := by
  unfold State.dinAt
  rw [h, hc, show s.dinCount + 1 + k = s.dinCount + (k + 1) by omega]
  cases s.dinScript <;> simp

theorem Kept.of_fields {s t : State} (cfg : t.cfg = s.cfg) (h1 : t.modeCs = s.modeCs) (h2 : t.modeClk = s.modeClk)
    (h3 : t.modeDin = s.modeDin) (h4 : t.modeC0 = s.modeC0) (h5 : t.modeC1 = s.modeC1) (seq : t.seq = s.seq)
    (chsel : t.chsel = s.chsel) (cmd : t.cmd = s.cmd) (agenda : t.agenda = s.agenda)
    (moveCount : t.moveCount = s.moveCount) (resetCount : t.resetCount = s.resetCount) : Kept s t :=
  ⟨cfg, fun p => by cases p <;> simp [State.mode, *], seq, chsel, cmd, agenda, moveCount, resetCount⟩

/-- CLK rises (R116, R119, R122). -/
theorem rise_line {s : State} (hr : s.ready = true) : ∃ t, afterHold riseEffect s = .next t ∧
    LineOf s.cfg.tCkh (fun _ => .write .clk high) 0 s t ∧ SameData s t ∧ t.cs = s.cs ∧ t.clk = high := by
  have hm := ((ready_iff s).1 hr).2.2.1
  refine ⟨_, riseEffect_eq (s := s.awaitHold) (by simpa using hm), ?_, by constructor <;> simp, by simp, rfl⟩
  constructor
  case kept => apply Kept.of_fields <;> simp
  case dinAt => intro k; simp [State.dinAt]
  all_goals simp
  all_goals omega

/-- CLK falls (R117, R120, R123). -/
theorem fall_line {s : State} (hr : s.ready = true) : ∃ t, afterHold fallEffect s = .next t ∧
    LineOf 0 (fun _ => .write .clk low) 0 s t ∧ SameData s t ∧ t.cs = s.cs ∧ t.clk = low := by
  have hm := ((ready_iff s).1 hr).2.2.1
  refine ⟨_, fallEffect_eq (s := s.awaitHold) (by simpa using hm), ?_, by constructor <;> simp, by simp, rfl⟩
  constructor
  case kept => apply Kept.of_fields <;> simp
  case dinAt => intro k; simp [State.dinAt]
  all_goals simp
  all_goals omega

/-- The start pulse's read, discarded (R118). -/
theorem startSample_line {s : State} (hr : s.ready = true) : ∃ t, afterHold startSampleEffect s = .next t ∧
    LineOf s.cfg.tCkl (fun _ => .read (s.dinAt 0)) 1 s t ∧ SameData s t ∧ t.cs = s.cs ∧ t.clk = s.clk := by
  have hm := ((ready_iff s).1 hr).1
  refine ⟨_, startSampleEffect_eq (s := s.awaitHold) (by simpa using hm), ?_, by constructor <;> simp, by simp, by simp⟩
  constructor
  case kept => apply Kept.of_fields <;> simp
  case dinAt => exact dinAt_tail (by simp) (by simp)
  all_goals simp [State.dinAt]
  all_goals omega

/-- The stop pulse's read, discarded (R124). -/
theorem stopSample_line {s : State} (hr : s.ready = true) : ∃ t, afterHold stopSampleEffect s = .next t ∧
    LineOf 0 (fun _ => .read (s.dinAt 0)) 1 s t ∧ SameData s t ∧ t.cs = s.cs ∧ t.clk = s.clk := by
  have hm := ((ready_iff s).1 hr).1
  refine ⟨_, stopSampleEffect_eq (s := s.awaitHold) (by simpa using hm), ?_, by constructor <;> simp, by simp, by simp⟩
  constructor
  case kept => apply Kept.of_fields <;> simp
  case dinAt => exact dinAt_tail (by simp) (by simp)
  all_goals simp [State.dinAt]
  all_goals omega

/-- A data sample, shifted in (R121). -/
theorem dataSample_line {s : State} (hr : s.ready = true) (hk : s.bitcnt.toNat < Config.nData) : ∃ t, afterHold dataSampleEffect s = .next t ∧
    LineOf s.cfg.tCkl (fun _ => .read (s.dinAt 0)) 1 s t ∧
    t.shreg = shiftIn s.shreg (s.dinAt 0) ∧ t.bitcnt = s.bitcnt + 1 ∧ t.tDesel = s.tDesel ∧ t.result = s.result ∧
    t.c0 = s.c0 ∧ t.c1 = s.c1 ∧ t.cs = s.cs ∧ t.clk = s.clk := by
  have hm := ((ready_iff s).1 hr).1
  refine ⟨_, dataSampleEffect_eq (s := s.awaitHold) (by simpa using hm) (by simpa using hk), ?_, by
    simp [State.dinAt]⟩
  constructor
  case kept => apply Kept.of_fields <;> simp
  case dinAt => exact dinAt_tail (by simp) (by simp)
  all_goals simp [State.dinAt]
  all_goals omega

/-- CS rises (R125). -/
theorem deselect_line {s : State} (hr : s.ready = true) : ∃ t, afterHold deselectEffect s = .next t ∧
    LineOf 0 (fun _ => .write .cs high) 0 s t ∧ SameData s t ∧ t.cs = high ∧ t.clk = s.clk := by
  have hm := ((ready_iff s).1 hr).2.1
  refine ⟨_, deselectEffect_eq (s := s.awaitHold) (by simpa using hm), ?_, by constructor <;> simp, rfl, by simp⟩
  constructor
  case kept => apply Kept.of_fields <;> simp
  case dinAt => intro k; simp [State.dinAt]
  all_goals simp
  all_goals omega

/-- CS falls, SHREG and BITCNT are cleared (R115). -/
theorem select_line {s : State} (hr : s.ready = true) : ∃ t, afterHold selectEffect s = .next t ∧
    LineOf s.cfg.tCss (fun _ => .write .cs low) 0 s t ∧
    t.shreg = 0 ∧ t.bitcnt = 0 ∧ t.tDesel = s.tDesel ∧ t.result = s.result ∧
    t.c0 = s.c0 ∧ t.c1 = s.c1 ∧ t.cs = low ∧ t.clk = s.clk := by
  have hm := ((ready_iff s).1 hr).2.1
  refine ⟨_, selectEffect_eq (s := s.awaitHold) (by simpa using hm), ?_, by simp⟩
  constructor
  case kept => apply Kept.of_fields <;> simp
  case dinAt => intro k; simp [State.dinAt]
  all_goals simp
  all_goals omega

/-- C0 is written (R112). -/
theorem chset0_line {s : State} (hr : s.ready = true) (hc : s.cfg.hasChan = true) : ∃ t, afterHold chset0Effect s = .next t ∧
    LineOf 0 (fun _ => .write .c0 (chanLevel0 s.chsel)) 0 s t ∧
    t.shreg = s.shreg ∧ t.bitcnt = s.bitcnt ∧ t.tDesel = s.tDesel ∧ t.result = s.result ∧
    t.c0 = chanLevel0 s.chsel ∧ t.c1 = s.c1 ∧ t.cs = s.cs ∧ t.clk = s.clk := by
  have hm := (((((ready_iff s).1 hr).2.2.2) hc).1)
  refine ⟨_, chset0Effect_eq (s := s.awaitHold) (by simpa using hc) (by simpa using hm), ?_, by simp⟩
  constructor
  case kept => apply Kept.of_fields <;> simp
  case dinAt => intro k; simp [State.dinAt]
  all_goals simp
  all_goals omega

/-- C1 is written (R113). -/
theorem chset1_line {s : State} (hr : s.ready = true) (hc : s.cfg.hasChan = true) : ∃ t, afterHold chset1Effect s = .next t ∧
    LineOf s.cfg.tChSetup (fun _ => .write .c1 (chanLevel1 s.chsel)) 0 s t ∧
    t.shreg = s.shreg ∧ t.bitcnt = s.bitcnt ∧ t.tDesel = s.tDesel ∧ t.result = s.result ∧
    t.c1 = chanLevel1 s.chsel ∧ t.c0 = s.c0 ∧ t.cs = s.cs ∧ t.clk = s.clk := by
  have hm := (((((ready_iff s).1 hr).2.2.2) hc).2)
  refine ⟨_, chset1Effect_eq (s := s.awaitHold) (by simpa using hc) (by simpa using hm), ?_, by simp⟩
  constructor
  case kept => apply Kept.of_fields <;> simp
  case dinAt => intro k; simp [State.dinAt]
  all_goals simp
  all_goals omega

/-- The dead-time test passes (R114). -/
theorem dtpass_line (s : State) : ∃ t, afterDeadTime dtpassEffect s = .next t ∧
    LineOf 0 (fun u => .now (nowAt s.cfg u)) 0 s t ∧ SameData s t ∧ t.cs = s.cs ∧ t.clk = s.clk ∧
    deadTimeOk s.cfg (nowAt s.cfg t.time) s.tDesel = true := by
  refine ⟨_, dtpassEffect_eq s.awaitDeadTime, ?_, by constructor <;> simp, by simp, by simp, ?_⟩
  · constructor
    case kept => apply Kept.of_fields <;> simp
    case dinAt => intro k; simp [State.dinAt]
    all_goals simp [State.now]
    all_goals omega
  · exact deadTimeOk_awaitDeadTime s

/-- The stamp (R126). -/
theorem stamp_line (s : State) : ∃ t, afterHold stampEffect s = .next t ∧
    LineOf 0 (fun u => .stamp (nowAt s.cfg u) s.shreg) 0 s t ∧ t.shreg = s.shreg ∧ t.bitcnt = s.bitcnt ∧
    t.tDesel = nowAt s.cfg t.time ∧ t.result = s.shreg ∧
    t.c0 = s.c0 ∧ t.c1 = s.c1 ∧ t.cs = s.cs ∧ t.clk = s.clk := by
  refine ⟨_, stampEffect_eq s.awaitHold, ?_, by simp [State.now]⟩
  constructor
  case kept => apply Kept.of_fields <;> simp
  case dinAt => intro k; simp [State.dinAt]
  all_goals simp [State.now]
  all_goals omega

/-! Clock pulses -/

theorem runLines_of_next {l : State → Result} {ls : List (State → Result)} {s t : State} (h : l s = .next t) :
    runLines (l :: ls) s = runLines ls t := by
  simp [h]

/-- What a sample keeps beside `LineOf`. -/
structure SampleKeeps (s t : State) : Prop where
  tDesel : t.tDesel = s.tDesel
  result : t.result = s.result
  c0 : t.c0 = s.c0
  c1 : t.c1 = s.c1
  cs : t.cs = s.cs
  clk : t.clk = s.clk

/-- One clock pulse: rise at `r`, fall at `f`, read at `m`, then a hold of `hold`. -/
structure Pulse (hold : Nat) (s t : State) (r f m : Nat) : Prop where
  kept : Kept s t
  time_le : s.time ≤ r
  ready_le : s.tReady ≤ r
  high_le : r + s.cfg.tCkh ≤ f
  fall_le : f ≤ m
  time : t.time = m
  tReady : t.tReady = m + hold
  trace : t.trace = s.trace ++ [(r, .write .clk high), (f, .write .clk low), (m, .read (s.dinAt 0))]
  dinAt : ∀ k, t.dinAt k = s.dinAt (k + 1)
  tDesel : t.tDesel = s.tDesel
  result : t.result = s.result
  c0 : t.c0 = s.c0
  c1 : t.c1 = s.c1
  cs : t.cs = s.cs
  clk : t.clk = low

/-- A pulse runs through, whatever its sample does with the level it reads. `b` is the state the sample starts from. -/
theorem pulse_runs {s : State} {sample : State → Result} {hold : Nat} (hr : s.ready = true)
    (h : ∀ b, b.ready = true → b.cfg = s.cfg → b.bitcnt = s.bitcnt →
      ∃ c, sample b = .next c ∧ LineOf hold (fun _ => .read (b.dinAt 0)) 1 b c ∧ SampleKeeps b c) :
    ∃ b t r f m, (∀ ls, runLines (afterHold riseEffect :: afterHold fallEffect :: sample :: ls) s = runLines ls t) ∧
      Pulse hold s t r f m ∧ b.ready = true ∧ sample b = .next t ∧ b.shreg = s.shreg ∧ b.bitcnt = s.bitcnt ∧
      b.dinAt 0 = s.dinAt 0 := by
  obtain ⟨a, ha, la, da, csa, -⟩ := rise_line hr
  have hra := la.kept.ready hr
  obtain ⟨b, hb, lb, db, csb, ckb⟩ := fall_line hra
  have hrb := lb.kept.ready hra
  obtain ⟨c, hc, lc, kc⟩ := h b hrb (lb.kept.cfg.trans la.kept.cfg) (db.bitcnt.trans da.bitcnt)
  have hd : b.dinAt 0 = s.dinAt 0 := by rw [lb.dinAt, la.dinAt]
  refine ⟨b, c, a.time, b.time, c.time,
    fun ls => by rw [runLines_of_next ha, runLines_of_next hb, runLines_of_next hc], ?_, hrb, hc,
    db.shreg.trans da.shreg, db.bitcnt.trans da.bitcnt, hd⟩
  exact {
    kept := la.kept.trans (lb.kept.trans lc.kept)
    time_le := la.time_le
    ready_le := la.ready_le
    high_le := by rw [← la.tReady]; exact lb.ready_le
    fall_le := lc.time_le
    time := rfl
    tReady := lc.tReady
    trace := by rw [lc.trace, lb.trace, la.trace, hd]; simp
    dinAt := fun k => by rw [lc.dinAt, lb.dinAt, la.dinAt]
    tDesel := by rw [kc.tDesel, db.tDesel, da.tDesel]
    result := by rw [kc.result, db.result, da.result]
    c0 := by rw [kc.c0, db.c0, da.c0]
    c1 := by rw [kc.c1, db.c1, da.c1]
    cs := by rw [kc.cs, csb, csa]
    clk := by rw [kc.clk, ckb] }

/-- The start pulse (R116 to R118). -/
theorem start_pulse {s : State} (hr : s.ready = true) : ∃ t r f m,
    (∀ ls, runLines (afterHold riseEffect :: afterHold fallEffect :: afterHold startSampleEffect :: ls) s = runLines ls t) ∧
    Pulse s.cfg.tCkl s t r f m ∧ t.shreg = s.shreg ∧ t.bitcnt = s.bitcnt := by
  obtain ⟨b, t, r, f, m, hrun, hp, hb, hn, hs, hk, -⟩ := pulse_runs (s := s) (sample := afterHold startSampleEffect)
    (hold := s.cfg.tCkl) hr fun b hb hcfg _ => by
      obtain ⟨c, hc, lc, dc, cs, ck⟩ := startSample_line hb
      exact ⟨c, hc, hcfg ▸ lc, dc.tDesel, dc.result, dc.c0, dc.c1, cs, ck⟩
  obtain ⟨c, hc, -, dc, -⟩ := startSample_line hb
  cases hn.symm.trans hc
  exact ⟨t, r, f, m, hrun, hp, dc.shreg.trans hs, dc.bitcnt.trans hk⟩

/-- The stop pulse (R122 to R124). -/
theorem stop_pulse {s : State} (hr : s.ready = true) : ∃ t r f m,
    (∀ ls, runLines (afterHold riseEffect :: afterHold fallEffect :: afterHold stopSampleEffect :: ls) s = runLines ls t) ∧
    Pulse 0 s t r f m ∧ t.shreg = s.shreg ∧ t.bitcnt = s.bitcnt := by
  obtain ⟨b, t, r, f, m, hrun, hp, hb, hn, hs, hk, -⟩ := pulse_runs (s := s) (sample := afterHold stopSampleEffect)
    (hold := 0) hr fun b hb _ _ => by
      obtain ⟨c, hc, lc, dc, cs, ck⟩ := stopSample_line hb
      exact ⟨c, hc, lc, dc.tDesel, dc.result, dc.c0, dc.c1, cs, ck⟩
  obtain ⟨c, hc, -, dc, -⟩ := stopSample_line hb
  cases hn.symm.trans hc
  exact ⟨t, r, f, m, hrun, hp, dc.shreg.trans hs, dc.bitcnt.trans hk⟩

/-- A data pulse (R119 to R121). -/
theorem data_pulse {s : State} (hr : s.ready = true) (hk : s.bitcnt.toNat < Config.nData) : ∃ t r f m,
    (∀ ls, runLines (afterHold riseEffect :: afterHold fallEffect :: afterHold dataSampleEffect :: ls) s = runLines ls t) ∧
    Pulse s.cfg.tCkl s t r f m ∧ t.shreg = shiftIn s.shreg (s.dinAt 0) ∧ t.bitcnt = s.bitcnt + 1 := by
  obtain ⟨b, t, r, f, m, hrun, hp, hb, hn, hs, hbk, hd⟩ := pulse_runs (s := s) (sample := afterHold dataSampleEffect)
    (hold := s.cfg.tCkl) hr fun b hb hcfg hbk => by
      obtain ⟨c, hc, lc, -, -, h3, h4, h5, h6, h7, h8⟩ := dataSample_line hb (hbk ▸ hk)
      exact ⟨c, hc, hcfg ▸ lc, h3, h4, h5, h6, h7, h8⟩
  obtain ⟨c, hc, -, h1, h2, -⟩ := dataSample_line hb (hbk ▸ hk)
  cases hn.symm.trans hc
  exact ⟨t, r, f, m, hrun, hp, by rw [h1, hs, hd], by rw [h2, hbk]⟩

/-- `n` data pulses one after the other, the `j`-th with its rise, fall and read at `r j`, `f j`, `m j`. -/
structure Pulses (n : Nat) (s t : State) (r f m : Nat → Nat) : Prop where
  kept : Kept s t
  first : 0 < n → s.time ≤ r 0 ∧ s.tReady ≤ r 0
  within : ∀ j, j < n → r j + s.cfg.tCkh ≤ f j ∧ f j ≤ m j
  between : ∀ j, j + 1 < n → m j + s.cfg.tCkl ≤ r (j + 1)
  last : 0 < n → t.time = m (n - 1) ∧ t.tReady = m (n - 1) + s.cfg.tCkl
  trace : t.trace = s.trace ++ (List.range n).flatMap fun j =>
    [(r j, .write .clk high), (f j, .write .clk low), (m j, .read (s.dinAt j))]
  dinAt : ∀ k, t.dinAt k = s.dinAt (k + n)
  tDesel : t.tDesel = s.tDesel
  result : t.result = s.result
  c0 : t.c0 = s.c0
  c1 : t.c1 = s.c1
  cs : t.cs = s.cs
  clk : s.clk = low → t.clk = low
  shreg : t.shreg = ((List.range n).map s.dinAt).foldl shiftIn s.shreg
  bitcnt : t.bitcnt.toNat = s.bitcnt.toNat + n

/-- As many data pulses as BITCNT still has room for run through (R94 line 5). -/
theorem data_pulses (n : Nat) {s : State} (hr : s.ready = true) (hk : s.bitcnt.toNat + n ≤ Config.nData) :
    ∃ t r f m, (∀ ls, runLines ((List.replicate n
        [afterHold riseEffect, afterHold fallEffect, afterHold dataSampleEffect]).flatten ++ ls) s = runLines ls t) ∧
      Pulses n s t r f m := by
  induction n generalizing s with
  | zero =>
    refine ⟨s, fun _ => 0, fun _ => 0, fun _ => 0, fun ls => rfl, ?_⟩
    exact {
      kept := Kept.refl s
      first := fun h => absurd h (by omega)
      within := fun j h => absurd h (by omega)
      between := fun j h => absurd h (by omega)
      last := fun h => absurd h (by omega)
      trace := by simp
      dinAt := fun _ => rfl
      tDesel := rfl, result := rfl, c0 := rfl, c1 := rfl, cs := rfl, clk := id, shreg := rfl
      bitcnt := rfl }
  | succ n ih =>
    have hn : Config.nData = 8 := rfl
    obtain ⟨a, r0, f0, m0, ha, pa, sa, ba⟩ := data_pulse hr (by omega)
    have hba : a.bitcnt.toNat = s.bitcnt.toNat + 1 := by
      rw [ba, BitVec.toNat_add, Nat.mod_eq_of_lt]
      · simp
      · simp; omega
    obtain ⟨t, r, f, m, ht, pt⟩ := ih (pa.kept.ready hr) (by omega)
    have hcfg := pa.kept.cfg
    have hdin : a.dinAt = fun k => s.dinAt (k + 1) := funext pa.dinAt
    refine ⟨t, fun j => Nat.casesOn j r0 r, fun j => Nat.casesOn j f0 f, fun j => Nat.casesOn j m0 m, fun ls => ?_, ?_⟩
    · simp only [List.replicate_succ, List.flatten_cons, List.cons_append, List.nil_append]
      rw [ha, ht]
    · exact {
        kept := pa.kept.trans pt.kept
        first := fun _ => ⟨pa.time_le, pa.ready_le⟩
        within := by
          rintro (_ | j) hj
          · exact ⟨pa.high_le, pa.fall_le⟩
          · exact hcfg ▸ pt.within j (by omega)
        between := by
          rintro (_ | j) hj
          · show m0 + s.cfg.tCkl ≤ r 0
            rw [← pa.tReady]; exact (pt.first (by omega)).2
          · exact hcfg ▸ pt.between j (by omega)
        last := fun _ => by
          rcases Nat.eq_zero_or_pos n with rfl | h0
          · have h2 := ht []
            simp only [List.replicate_zero, List.flatten_nil, List.nil_append, runLines_nil] at h2
            cases h2
            exact ⟨pa.time, pa.tReady⟩
          · obtain ⟨n', rfl⟩ := Nat.exists_eq_succ_of_ne_zero (by omega : n ≠ 0)
            exact hcfg ▸ pt.last h0
        trace := by
          rw [pt.trace, pa.trace, List.range_succ_eq_map, hdin]
          simp [List.flatMap_map]
        dinAt := fun k => by rw [pt.dinAt, pa.dinAt]; rfl
        tDesel := pt.tDesel.trans pa.tDesel
        result := pt.result.trans pa.result
        c0 := pt.c0.trans pa.c0
        c1 := pt.c1.trans pa.c1
        cs := pt.cs.trans pa.cs
        clk := fun _ => pt.clk pa.clk
        shreg := by
          rw [pt.shreg, sa, List.range_succ_eq_map, hdin]
          simp [Function.comp_def]
        bitcnt := by rw [pt.bitcnt, hba]; omega }

end Sys2Proof.Machine
end

