-- ==== Sys2Proof/Laws/Encoding.lean ====
section
/-! SUPPORT. The two fields of a command word, and the row that its operation code selects (30_encoding.md R70 to R73). -/

namespace Sys2Proof

theorem getLsbD_cmd16 (opc opd : Byte) (i : Nat) :
    (cmd16 opc opd).getLsbD i = if i < 8 then opd.getLsbD i else opc.getLsbD (i - 8) := by
  simp only [cmd16, BitVec.getLsbD_append]

@[simp] theorem opcOf_cmd16 (opc opd : Byte) : opcOf (cmd16 opc opd) = opc := by
  refine BitVec.eq_of_getLsbD_eq fun i hi => ?_
  simp [opcOf, hi, getLsbD_cmd16]

@[simp] theorem opdOf_cmd16 (opc opd : Byte) : opdOf (cmd16 opc opd) = opd := by
  refine BitVec.eq_of_getLsbD_eq fun i hi => ?_
  simp [opdOf, hi, getLsbD_cmd16]

/-- A word is its two fields. -/
@[simp] theorem cmd16_fields (w : CmdWord) : cmd16 (opcOf w) (opdOf w) = w := by
  refine BitVec.eq_of_getLsbD_eq fun i hi => ?_
  rw [getLsbD_cmd16]
  split
  · simp [opdOf, *]
  · have : i - 8 < 8 := by omega
    simp [opcOf, this, Nat.add_sub_cancel' (show 8 ≤ i by omega)]

theorem cmd16_and (a b c d : Byte) : cmd16 a b &&& cmd16 c d = cmd16 (a &&& c) (b &&& d) := by
  refine BitVec.eq_of_getLsbD_eq fun i hi => ?_
  simp only [BitVec.getLsbD_and, getLsbD_cmd16]
  split <;> simp

theorem cmd16_eq_iff (a b c d : Byte) : cmd16 a b = cmd16 c d ↔ a = c ∧ b = d :=
  ⟨fun h => ⟨by rw [← opcOf_cmd16 a b, h, opcOf_cmd16], by rw [← opdOf_cmd16 a b, h, opdOf_cmd16]⟩,
    fun ⟨h, h'⟩ => by rw [h, h']⟩

/-- A mask over OPC alone compares OPC alone. -/
theorem cmd16_masked_iff (opc opd m p : Byte) : (cmd16 opc opd &&& cmd16 m 0 = cmd16 p 0) ↔ opc &&& m = p := by
  rw [cmd16_and, cmd16_eq_iff]; simp

/-- The number of the table's row an operation code belongs to, by the masks of opcode_table.json over OPC. -/
def rowOf (opc : Byte) : Fin 10 :=
  if opc &&& 0xFF = 0x01 then 0
  else if opc &&& 0xFF = 0x02 then 1
  else if opc &&& 0xFF = 0x00 then 2
  else if opc &&& 0xFF = 0x03 then 3
  else if opc &&& 0xFC = 0x04 then 4
  else if opc &&& 0xF8 = 0x08 then 5
  else if opc &&& 0xF0 = 0x10 then 6
  else if opc &&& 0xE0 = 0x20 then 7
  else if opc &&& 0xC0 = 0x40 then 8
  else 9

/-- The instruction of a row. -/
def rowInstr (opc opd : Byte) : Fin 10 → Instr
  | 0 => .init opd
  | 1 => .conv opd
  | 2 => .reservedOpc00 opd
  | 3 => .reservedOpc03 opd
  | 4 => .reservedOpc04To07 opc opd
  | 5 => .reservedOpc08To0F opc opd
  | 6 => .reservedOpc10To1F opc opd
  | 7 => .reservedOpc20To3F opc opd
  | 8 => .reservedOpc40To7F opc opd
  | 9 => .reservedOpc80ToFF opc opd

/-- Decoding a word finds the row of its operation code. -/
theorem decodeCommand_cmd16 (opc opd : Byte) : decodeCommand (cmd16 opc opd) = rowInstr opc opd (rowOf opc) := by
  have m (m p : Byte) (w v : CmdWord) (hw : w = cmd16 m 0) (hv : v = cmd16 p 0) :
      (cmd16 opc opd &&& w = v) ↔ opc &&& m = p := by rw [hw, hv, cmd16_masked_iff]
  simp only [decodeCommand, opcOf_cmd16, opdOf_cmd16,
    m 0xFF 0x01 0xFF00 0x0100 rfl rfl, m 0xFF 0x02 0xFF00 0x0200 rfl rfl, m 0xFF 0x00 0xFF00 0x0000 rfl rfl,
    m 0xFF 0x03 0xFF00 0x0300 rfl rfl, m 0xFC 0x04 0xFC00 0x0400 rfl rfl, m 0xF8 0x08 0xF800 0x0800 rfl rfl,
    m 0xF0 0x10 0xF000 0x1000 rfl rfl, m 0xE0 0x20 0xE000 0x2000 rfl rfl, m 0xC0 0x40 0xC000 0x4000 rfl rfl, rowOf]
  split_ifs <;> rfl

/-- A word whose operation code a row's mask takes decodes to that row, if the row is the code's. -/
theorem decodeCommand_of_row {opc opd : Byte} {r : Fin 10} (h : rowOf opc = r) :
    decodeCommand (cmd16 opc opd) = rowInstr opc opd r := by
  rw [decodeCommand_cmd16, h]

end Sys2Proof
end

