-- ==== Sys2Proof/Laws/Observation.lean ====
section
/-! SUPPORT. The observation grows with the trace: what one more event adds to it; and the steps of a run, put together. -/

namespace Sys2Proof.Machine

@[simp] theorem shownBy_nil {α : Type} (f : Event → Option α) : shownBy f [] = [] := rfl

@[simp] theorem shownBy_append {α : Type} (f : Event → Option α) (a b : List (Nat × Event)) :
    shownBy f (a ++ b) = shownBy f a ++ shownBy f b := by simp [shownBy]

/-- One event shows what `f` shows of it. -/
theorem shownBy_singleton {α : Type} (f : Event → Option α) (t : Nat) (e : Event) :
    shownBy f [(t, e)] = ((f e).map fun x => (t, x)).toList := by cases h : f e <;> simp [shownBy, h]

@[simp] theorem pinEvents_append (o : Observer) (a b : List (Nat × Event)) :
    pinEvents o (a ++ b) = pinEvents o a ++ pinEvents o b := shownBy_append _ a b

/-- The data source sees all that an outside observer sees: equal for the one, equal for the other. -/
theorem pinEvents_outside (tr : List (Nat × Event)) :
    pinEvents .outside tr = (pinEvents .dataSource tr).filter fun e => e.2 ≠ .read := by
  induction tr with
  | nil => rfl
  | cons e tr ih =>
    rw [show e :: tr = [e] ++ tr from rfl, pinEvents_append, pinEvents_append, List.filter_append, ih]
    congr 1
    obtain ⟨t, e⟩ := e
    cases e <;> simp [pinEvents, shownBy_singleton, Event.seen]

@[simp] theorem responses_append (a b : List (Nat × Event)) : responses (a ++ b) = responses a ++ responses b :=
  shownBy_append _ a b

/-- The level after the last entry, `level` if there is none, is the same with the entries that change nothing left out. -/
theorem getLastD_changesFrom (level : Bool) (l : List (Nat × Bool)) :
    ((changesFrom level l).map Prod.snd).getLastD level = (l.map Prod.snd).getLastD level := by
  induction l generalizing level with
  | nil => rfl
  | cons e l ih =>
    unfold changesFrom
    split
    · next h => subst h; rw [ih, List.map_cons, List.getLastD_cons]
    · rw [List.map_cons, List.map_cons, List.getLastD_cons, List.getLastD_cons, ih]

theorem changesFrom_append (level : Bool) (a b : List (Nat × Bool)) :
    changesFrom level (a ++ b) = changesFrom level a ++ changesFrom ((a.map Prod.snd).getLastD level) b := by
  induction a generalizing level with
  | nil => rfl
  | cons e a ih =>
    simp only [List.cons_append, changesFrom, List.map_cons, List.getLastD_cons]
    split
    · next h => subst h; exact ih _
    · rw [ih, List.cons_append]

/-- The level cmd_ready is left at is that of the last event that begins or ends BUSY. -/
theorem lastReady_cmdReadyChanges (tr : List (Nat × Event)) :
    lastReady (cmdReadyChanges tr) = ((shownBy Event.cmdReady tr).map Prod.snd).getLastD true :=
  getLastD_changesFrom true _

/-- What more events add to the changes of cmd_ready. -/
theorem cmdReadyChanges_append (a b : List (Nat × Event)) :
    cmdReadyChanges (a ++ b) =
      cmdReadyChanges a ++ changesFrom (lastReady (cmdReadyChanges a)) (shownBy Event.cmdReady b) := by
  rw [lastReady_cmdReadyChanges, cmdReadyChanges, shownBy_append, changesFrom_append]; rfl

/-- An event that sets cmd_ready leaves it at that level. -/
theorem lastReady_of_set (tr : List (Nat × Event)) (t : Nat) {e : Event} {v : Bool} (h : e.cmdReady = some v) :
    lastReady (cmdReadyChanges (tr ++ [(t, e)])) = v := by
  rw [lastReady_cmdReadyChanges, shownBy_append, shownBy_singleton, h]; simp

/-- An event that does not set cmd_ready leaves its last level. -/
theorem lastReady_of_unset (tr : List (Nat × Event)) (t : Nat) {e : Event} (h : e.cmdReady = none) :
    lastReady (cmdReadyChanges (tr ++ [(t, e)])) = lastReady (cmdReadyChanges tr) := by
  rw [lastReady_cmdReadyChanges, lastReady_cmdReadyChanges, shownBy_append, shownBy_singleton, h]; simp

/-- Only STAMP responds (10_state.md R30). -/
theorem response_eq_some {e : Event} {r : Byte} : e.response = some r ↔ ∃ v, e = .stamp v r := by
  cases e <;> simp [Event.response]

/-- Steps one after the other. -/
theorem steps_add (m n : Nat) (s : State) : steps (m + n) s = (steps m s).andThen (steps n) := by
  induction m generalizing s with
  | zero => rw [Nat.zero_add]; rfl
  | succ m ih =>
    rw [show m + 1 + n = (m + n) + 1 by omega]
    simp only [steps, andThen_assoc]
    congr 1
    funext u
    exact ih u

end Sys2Proof.Machine
end

