-- ==== Sys2Proof/Laws/PerInstr.lean ====
section
/-! SUPPORT. Statements about every instruction as a term, one lemma per constructor. -/

/-- Decoding the encoding of a well-formed instruction gives it back (30_encoding.md R70 to R73, R78). -/
def Sys2Proof.Laws.RoundTrip.Statement (i : Sys2Proof.Instr) : Prop :=
  i.wellFormed = true → Sys2Proof.decode (Sys2Proof.encode i) = .ok i

/-- A reserved row takes exactly the operation codes of its range. -/
theorem Sys2Proof.Laws.RoundTrip.rowOf_reserved : ∀ opc : Sys2Proof.Byte,
    (Sys2Proof.opcIn 0xFC 0x04 opc = true → Sys2Proof.rowOf opc = 4) ∧
    (Sys2Proof.opcIn 0xF8 0x08 opc = true → Sys2Proof.rowOf opc = 5) ∧
    (Sys2Proof.opcIn 0xF0 0x10 opc = true → Sys2Proof.rowOf opc = 6) ∧
    (Sys2Proof.opcIn 0xE0 0x20 opc = true → Sys2Proof.rowOf opc = 7) ∧
    (Sys2Proof.opcIn 0xC0 0x40 opc = true → Sys2Proof.rowOf opc = 8) ∧
    (Sys2Proof.opcIn 0x80 0x80 opc = true → Sys2Proof.rowOf opc = 9) := by
  decide

/-- A command word's round trip, from its row. -/
theorem Sys2Proof.Laws.RoundTrip.of_row {i : Sys2Proof.Instr} {opc opd : Sys2Proof.Byte} {r : Fin 10}
    (hr : Sys2Proof.rowOf opc = r) (he : Sys2Proof.encode i = .word (Sys2Proof.cmd16 opc opd))
    (hi : Sys2Proof.rowInstr opc opd r = i) : Sys2Proof.decode (Sys2Proof.encode i) = .ok i := by
  rw [he, Sys2Proof.decode, Sys2Proof.decodeCommand_of_row hr, hi]

theorem Sys2Proof.Laws.RoundTrip.init (opd : Sys2Proof.Byte) :
    Sys2Proof.Laws.RoundTrip.Statement (.init opd) :=
  fun _ => Sys2Proof.Laws.RoundTrip.of_row (r := 0) (by decide) rfl rfl

theorem Sys2Proof.Laws.RoundTrip.conv (opd : Sys2Proof.Byte) :
    Sys2Proof.Laws.RoundTrip.Statement (.conv opd) :=
  fun _ => Sys2Proof.Laws.RoundTrip.of_row (r := 1) (by decide) rfl rfl

theorem Sys2Proof.Laws.RoundTrip.reservedOpc00 (opd : Sys2Proof.Byte) :
    Sys2Proof.Laws.RoundTrip.Statement (.reservedOpc00 opd) :=
  fun _ => Sys2Proof.Laws.RoundTrip.of_row (r := 2) (by decide) rfl rfl

theorem Sys2Proof.Laws.RoundTrip.reservedOpc03 (opd : Sys2Proof.Byte) :
    Sys2Proof.Laws.RoundTrip.Statement (.reservedOpc03 opd) :=
  fun _ => Sys2Proof.Laws.RoundTrip.of_row (r := 3) (by decide) rfl rfl

theorem Sys2Proof.Laws.RoundTrip.reservedOpc04To07 (opc opd : Sys2Proof.Byte) :
    Sys2Proof.Laws.RoundTrip.Statement (.reservedOpc04To07 opc opd) :=
  fun h => Sys2Proof.Laws.RoundTrip.of_row ((Sys2Proof.Laws.RoundTrip.rowOf_reserved opc).1 h) rfl rfl

theorem Sys2Proof.Laws.RoundTrip.reservedOpc08To0F (opc opd : Sys2Proof.Byte) :
    Sys2Proof.Laws.RoundTrip.Statement (.reservedOpc08To0F opc opd) :=
  fun h => Sys2Proof.Laws.RoundTrip.of_row ((Sys2Proof.Laws.RoundTrip.rowOf_reserved opc).2.1 h) rfl rfl

theorem Sys2Proof.Laws.RoundTrip.reservedOpc10To1F (opc opd : Sys2Proof.Byte) :
    Sys2Proof.Laws.RoundTrip.Statement (.reservedOpc10To1F opc opd) :=
  fun h => Sys2Proof.Laws.RoundTrip.of_row ((Sys2Proof.Laws.RoundTrip.rowOf_reserved opc).2.2.1 h) rfl rfl

theorem Sys2Proof.Laws.RoundTrip.reservedOpc20To3F (opc opd : Sys2Proof.Byte) :
    Sys2Proof.Laws.RoundTrip.Statement (.reservedOpc20To3F opc opd) :=
  fun h => Sys2Proof.Laws.RoundTrip.of_row ((Sys2Proof.Laws.RoundTrip.rowOf_reserved opc).2.2.2.1 h) rfl rfl

theorem Sys2Proof.Laws.RoundTrip.reservedOpc40To7F (opc opd : Sys2Proof.Byte) :
    Sys2Proof.Laws.RoundTrip.Statement (.reservedOpc40To7F opc opd) :=
  fun h => Sys2Proof.Laws.RoundTrip.of_row ((Sys2Proof.Laws.RoundTrip.rowOf_reserved opc).2.2.2.2.1 h) rfl rfl

theorem Sys2Proof.Laws.RoundTrip.reservedOpc80ToFF (opc opd : Sys2Proof.Byte) :
    Sys2Proof.Laws.RoundTrip.Statement (.reservedOpc80ToFF opc opd) :=
  fun h => Sys2Proof.Laws.RoundTrip.of_row ((Sys2Proof.Laws.RoundTrip.rowOf_reserved opc).2.2.2.2.2 h) rfl rfl

theorem Sys2Proof.Laws.RoundTrip.accept : Sys2Proof.Laws.RoundTrip.Statement .accept := fun _ => rfl

theorem Sys2Proof.Laws.RoundTrip.chset0 : Sys2Proof.Laws.RoundTrip.Statement .chset0 := fun _ => rfl

theorem Sys2Proof.Laws.RoundTrip.chset1 : Sys2Proof.Laws.RoundTrip.Statement .chset1 := fun _ => rfl

theorem Sys2Proof.Laws.RoundTrip.dtpass : Sys2Proof.Laws.RoundTrip.Statement .dtpass := fun _ => rfl

theorem Sys2Proof.Laws.RoundTrip.select : Sys2Proof.Laws.RoundTrip.Statement .select := fun _ => rfl

theorem Sys2Proof.Laws.RoundTrip.startRise : Sys2Proof.Laws.RoundTrip.Statement .startRise := fun _ => rfl

theorem Sys2Proof.Laws.RoundTrip.startFall : Sys2Proof.Laws.RoundTrip.Statement .startFall := fun _ => rfl

theorem Sys2Proof.Laws.RoundTrip.startSample : Sys2Proof.Laws.RoundTrip.Statement .startSample := fun _ => rfl

theorem Sys2Proof.Laws.RoundTrip.dataRiseFirst : Sys2Proof.Laws.RoundTrip.Statement .dataRiseFirst := fun _ => rfl

theorem Sys2Proof.Laws.RoundTrip.dataFall : Sys2Proof.Laws.RoundTrip.Statement .dataFall := fun _ => rfl

theorem Sys2Proof.Laws.RoundTrip.dataSample : Sys2Proof.Laws.RoundTrip.Statement .dataSample := fun _ => rfl

theorem Sys2Proof.Laws.RoundTrip.dataRiseNext : Sys2Proof.Laws.RoundTrip.Statement .dataRiseNext := fun _ => rfl

theorem Sys2Proof.Laws.RoundTrip.stopRise : Sys2Proof.Laws.RoundTrip.Statement .stopRise := fun _ => rfl

theorem Sys2Proof.Laws.RoundTrip.stopFall : Sys2Proof.Laws.RoundTrip.Statement .stopFall := fun _ => rfl

theorem Sys2Proof.Laws.RoundTrip.stopSample : Sys2Proof.Laws.RoundTrip.Statement .stopSample := fun _ => rfl

theorem Sys2Proof.Laws.RoundTrip.deselect : Sys2Proof.Laws.RoundTrip.Statement .deselect := fun _ => rfl

theorem Sys2Proof.Laws.RoundTrip.stamp : Sys2Proof.Laws.RoundTrip.Statement .stamp := fun _ => rfl
end

