-- ==== Sys2Proof/Tests/Slice0.lean ====
section
/-! SUPPORT. Tests against the vectors of 95_test_vectors.md and the tables of 30_encoding.md, and a witness for every
statement with hypotheses. -/

namespace Sys2Proof.Tests

open Sys2Proof Sys2Proof.Machine

/-! ## Well-formedness: for each check an ill-formed term, refused -/

theorem test_ill_formed_terms_are_refused :
    (Instr.reservedOpc04To07 0x08 0).wellFormed = false ∧ (Instr.reservedOpc08To0F 0x07 0).wellFormed = false ∧
    (Instr.reservedOpc10To1F 0x20 0).wellFormed = false ∧ (Instr.reservedOpc20To3F 0x1F 0).wellFormed = false ∧
    (Instr.reservedOpc40To7F 0x80 0).wellFormed = false ∧ (Instr.reservedOpc80ToFF 0x7F 0).wellFormed = false := by
  decide

theorem test_well_formed_terms :
    (Instr.reservedOpc04To07 0x07 0).wellFormed = true ∧ (Instr.reservedOpc80ToFF 0x82 0).wellFormed = true ∧
    (Instr.conv 0x06).wellFormed = true ∧ Instr.stamp.wellFormed = true := by decide

/-! ## Decoding: the words of table V1 and the codes of R78, written out from the spec -/

theorem test_decode_init : decodeCommand 0b0000000100000000 = .init 0x00 ∧ decodeCommand 0x01FF = .init 0xFF := by decide

theorem test_decode_conv : decodeCommand 0b0000001000000110 = .conv 0x06 ∧ decodeCommand 0x0281 = .conv 0x81 ∧
    chanBits 0x06 = 2 ∧ chanBits 0x81 = 1 := by decide

theorem test_decode_reserved_single :
    decodeCommand 0x0000 = .reservedOpc00 0x00 ∧ decodeCommand 0x0002 = .reservedOpc00 0x02 ∧
    decodeCommand 0x0300 = .reservedOpc03 0x00 := by decide

theorem test_decode_reserved_ranges :
    decodeCommand 0b0000010000000000 = .reservedOpc04To07 0x04 0 ∧
    decodeCommand 0b0000111111111111 = .reservedOpc08To0F 0x0F 0xFF ∧
    decodeCommand 0b0001000000000000 = .reservedOpc10To1F 0x10 0 ∧
    decodeCommand 0b0011111100000000 = .reservedOpc20To3F 0x3F 0 ∧
    decodeCommand 0b0100000000000000 = .reservedOpc40To7F 0x40 0 ∧
    decodeCommand 0x8200 = .reservedOpc80ToFF 0x82 0x00 ∧ decodeCommand 0xFFFF = .reservedOpc80ToFF 0xFF 0xFF := by decide

theorem test_decode_micro_steps_of_setup :
    decodeState 0b00000 0 = .ok .accept ∧ decodeState 0b00100 0 = .ok .chset0 ∧ decodeState 0b00101 0 = .ok .chset1 ∧
    decodeState 0b01000 0 = .ok .dtpass ∧ decodeState 0b01001 0 = .ok .select := by decide

theorem test_decode_micro_steps_of_pulses :
    decodeState 0b01100 0 = .ok .startRise ∧ decodeState 0b10000 0 = .ok .startFall ∧
    decodeState 0b10001 0 = .ok .startSample ∧ decodeState 0b10010 0 = .ok .dataRiseFirst ∧
    decodeState 0b10100 0 = .ok .dataFall ∧ decodeState 0b10101 0 = .ok .dataSample ∧
    decodeState 0b10110 7 = .ok .dataRiseNext ∧ decodeState 0b10110 8 = .ok .stopRise := by decide

theorem test_decode_micro_steps_of_stop :
    decodeState 0b11000 8 = .ok .stopFall ∧ decodeState 0b11001 8 = .ok .stopSample ∧
    decodeState 0b11010 8 = .ok .deselect ∧ decodeState 0b11011 8 = .ok .stamp := by decide

/-- U12: codes and counts that are never held are rejected by name. -/
theorem test_decode_rejects_unused : decodeState 0b00001 0 = .error (.unusedStateCode 1) ∧
    decodeState 0b11100 0 = .error (.unusedStateCode 28) ∧ decodeState 0b10110 9 = .error (.unusedBitCount 9) := by decide

theorem test_decode_table_word : decodeTableWord 16 0x0200 = some (.conv 0) ∧ decodeTableWord 5 0b01001 = some .select ∧
    decodeTableWord 5 0b11111 = none ∧ decodeTableWord 16 0x10000 = none := by decide

/-! ## The datapath: tables V2, V3, V4 -/

theorem test_shiftIn : shiftIn 0x59 0 = 0xB2 ∧ shiftIn 0x7F 1 = 0xFF ∧ shiftIn 0x80 1 = 0x01 ∧ shiftIn 0xAA 1 = 0x55 := by
  decide

theorem test_chanDecode : chanDecode 1 = (1, 0) ∧ chanDecode 2 = (0, 1) ∧ chanDecode 6 = (0, 1) ∧ chanDecode 0xFC = (0, 0) ∧
    chanDecode 0xFF = (1, 1) := by decide

theorem test_deadTimeOk : deadTimeOk Params.default 1 0 = false ∧ deadTimeOk Params.default 2 0 = true ∧
    deadTimeOk Params.default 0 0xFFFFFFFF = false ∧ deadTimeOk Params.default 1 0xFFFFFFFF = true ∧
    deadTimeOk Params.default 0x7FFFFFFF 0x80000000 = true := by decide

/-- P1 line by line: the words the texts assemble to (R81). -/
theorem test_assemble : assemble .init = 0x0100 ∧ assemble (.conv 2) = 0x0202 ∧ assemble (.conv 0x81) = 0x0281 ∧
    assemble .convPlain = 0x0200 := by decide

/-! ## The observation and scripts: R105, R81 -/

/-- R105: the word, the value of NOW and the level of a read are not seen; cmd_ready falls at ACCEPT and rises at STAMP. -/
theorem test_observation :
    let trace : List (Nat × Event) := [(5, .accept 0x0202), (6, .write .cs low), (7, .read 1), (8, .now 8), (9, .stamp 9 0xB2)]
    pinEvents .dataSource trace = [(6, .write .cs low), (7, .read)] ∧ pinEvents .outside trace = [(6, .write .cs low)] ∧
    responses trace = [(9, 0xB2)] ∧ cmdReadyChanges trace = [(5, false), (9, true)] ∧
    cmdReadyAt trace 4 = true ∧ cmdReadyAt trace 5 = false ∧ cmdReadyAt trace 8 = false ∧ cmdReadyAt trace 9 = true := by
  decide

/-- R105 (c): a reset in IDLE changes no cmd_ready, one during a conversion raises it. -/
theorem test_reset_and_cmd_ready : cmdReadyChanges [(0, .reset), (5, .accept 0x0200), (6, .reset), (7, .reset)] =
    [(5, false), (6, true)] := by decide

/-! ## States for the tests: program P1 -/

/-- The ten draws of P1. -/
def levelsP1 : List Bit := [0, 1, 0, 1, 1, 0, 0, 1, 0, 1]

/-- The default engine after INIT, idle at time 1000, in the earliest schedule of P1. -/
def idleP1 : State :=
  { State.reset.configured with cs := high, time := 1000, dinScript := levelsP1, gaps := List.replicate 36 0 }

/-- The engine of P1 in state `q` at time `t`, the hold over, channel 2, BITCNT `k`, SHREG `r`, one DIN level scripted. -/
def atState (q : SeqState) (t : Nat) (k : BitVec 4) (r : Byte) (level : Bit) : State :=
  { idleP1 with
    seq := q, cs := csLevel q, clk := clkLevel q, bitcnt := k, shreg := r, chsel := 2, time := t, tReady := t
    dinScript := [level], gaps := [1] }

/-- The three-pin engine after INIT. -/
def threePin : Params := { Params.default with packaging := .threePin }

/-- The engine of P6, whose channel is wired to 1. -/
def wired : Params := { Params.default with packaging := .fixedChannel 1 }

/-- A property of the next state a meaning answers. -/
def nextHas (r : Result) (p : State → Bool) : Bool :=
  match r with
  | .next t => p t
  | .fault _ => false
  | .refused _ => false

/-- Where a script in progress stands. -/
def standsAt (r : Except ScriptStop Bench) : Option (SeqState × Nat) :=
  r.toOption.map fun b => (b.machine.seq, b.machine.time)

/-- P5: a command whose time lies inside a conversion is presented there, while BUSY. -/
theorem test_script_command_while_busy :
    (match ({ machine := atState .dataPulse0 1050 3 5 0, levels := [] } : Bench).run [.atTime 1050, .cmd (.conv 1)] with
      | .error (.refused .commandWhileBusy) => true
      | _ => false) = true := by decide

/-- R81, P1: the DIN line sets its ten levels aside, s first and p last. -/
theorem test_script_din : (({ machine := idleP1, levels := [] } : Bench).line (.din #v[0, 1, 0, 1, 1, 0, 0, 1, 0, 1])).toOption.map
    Bench.levels = some levelsP1 := by decide

/-- R81: `AT t` lets the events that can come by then come, and no later one. -/
theorem test_script_waits : standsAt (({ machine := { atState .stopPulse0 1100 8 0xB2 0 with tReady := 1106 }, levels := [] }
    : Bench).waitUntil 1105) = some (.stopPulse0, 1105) := by decide

/-! ## One step of each instruction: table V8, programs P1 to P6 -/

/-- S1, P1: INIT at t = 10. -/
theorem test_init : nextHas (exec (.init 0) { State.reset with time := 10 }) (fun t =>
    t.ready && t.cs = 1 && t.clk = 0 && t.modeC1 = .output && t.trace.length = 7 && !t.busy) = true := by decide

/-- P1, S2: the whole conversion as one transition. -/
theorem test_conv : nextHas (exec (.conv 2) idleP1) (fun t =>
    t.result = 0xB2 && t.tDesel = 1106 && t.time = 1106 && t.c0 = 0 && t.c1 = 1 && t.cs = 1 && t.clk = 0 && responses t.trace = [(1106, 0xB2)] &&
      t.trace.length = 37) = true := by decide +kernel

/-- P3: the three-pin engine at time 1 waits one microsecond for the sentinel. -/
theorem test_conv_three_pin : nextHas
    (exec (.conv 0) { idleP1 with cfg := threePin, time := 1, dinScript := [1, 0, 1, 0, 1, 0, 1, 0, 1, 0] }) (fun t =>
    t.result = 0x55 && t.tDesel = 108 && t.time = 108 && t.trace.length = 35) = true := by decide

/-- P5: a reserved word, and CONV before INIT, have no step. -/
theorem test_refusals : exec (.reservedOpc03 0) idleP1 = .refused (.reservedWord 0x03) ∧
    exec (.conv 0) State.reset = .refused .convBeforeInit := ⟨rfl, rfl⟩

theorem test_accept : nextHas (exec .accept { idleP1 with cmd := some 0x0202 }) (fun t =>
    t.seq = .channelSet0 && t.chsel = 2 && t.busy && t.tReady = 1000) = true := by decide

/-- P6: the fixed channel wins over the operand. -/
theorem test_accept_fixed_channel : nextHas
    (exec .accept { idleP1 with cmd := some 0x0202, cfg := wired }) (fun t =>
    t.chsel = 1) = true := by decide

theorem test_chset0 : nextHas (exec .chset0 { atState .channelSet0 1000 0 0 0 with c0 := 1 }) (fun t =>
    t.seq = .channelSet1 && t.c0 = 0) = true := by decide

theorem test_chset1 : nextHas (exec .chset1 (atState .channelSet1 1000 0 0 0)) (fun t =>
    t.seq = .deadTimeWait0 && t.c1 = 1 && t.tReady = 1000) = true := by decide

theorem test_dtpass : nextHas (exec .dtpass (atState .deadTimeWait0 1000 0 0 0)) (fun t =>
    t.seq = .deadTimeWait1 && t.trace = [(1000, .now 1000)]) = true := by decide

/-- V8's not-enabled vector: at 1107 with T_DESEL 1106 only time passes. -/
theorem test_dtpass_not_enabled : nextHas (exec .dtpass { atState .deadTimeWait0 1107 0 0 0 with tDesel := 1106 }) (fun t =>
    t.seq = .deadTimeWait0 && t.trace = [] && t.time = 1108) = true := by decide

theorem test_select : nextHas (exec .select (atState .deadTimeWait1 1000 5 0xFF 0)) (fun t =>
    t.seq = .selectedSetup0 && t.cs = 0 && t.shreg = 0 && t.bitcnt = 0 && t.tReady = 1002) = true := by decide

theorem test_startRise : nextHas (exec .startRise (atState .selectedSetup0 1002 0 0 0)) (fun t =>
    t.seq = .startPulse0 && t.clk = 1 && t.tReady = 1007) = true := by decide

/-- V8's not-enabled vector: at 1001 with T_READY 1002. -/
theorem test_startRise_under_hold : nextHas (exec .startRise { atState .selectedSetup0 1001 0 0 0 with tReady := 1002 })
    (fun t => t.seq = .selectedSetup0 && t.clk = 0) = true := by decide

theorem test_startFall : nextHas (exec .startFall (atState .startPulse0 1007 0 0 0)) (fun t =>
    t.seq = .startPulse1 && t.clk = 0 && t.tReady = 1007) = true := by decide

theorem test_startSample : nextHas (exec .startSample (atState .startPulse1 1007 0 0 1)) (fun t =>
    t.seq = .startPulse2 && t.shreg = 0 && t.tReady = 1013 && t.trace = [(1007, .read 1)]) = true := by decide

theorem test_dataRiseFirst : nextHas (exec .dataRiseFirst (atState .startPulse2 1013 0 0 0)) (fun t =>
    t.seq = .dataPulse0 && t.clk = 1 && t.bitcnt = 0 && t.tReady = 1018) = true := by decide

theorem test_dataFall : nextHas (exec .dataFall (atState .dataPulse0 1018 0 0 0)) (fun t =>
    t.seq = .dataPulse1 && t.clk = 0 && t.tReady = 1018) = true := by decide

theorem test_dataSample : nextHas (exec .dataSample (atState .dataPulse1 1018 0 0 1)) (fun t =>
    t.seq = .dataPulse2 && t.shreg = 1 && t.bitcnt = 1 && t.tReady = 1024) = true := by decide

/-- P1, t = 1095: the eighth data read. -/
theorem test_dataSample_last : nextHas (exec .dataSample (atState .dataPulse1 1095 7 0x59 0)) (fun t =>
    t.shreg = 0xB2 && t.bitcnt = 8) = true := by decide

theorem test_dataRiseNext : nextHas (exec .dataRiseNext (atState .dataPulse2 1024 1 1 0)) (fun t =>
    t.seq = .dataPulse0 && t.clk = 1 && t.tReady = 1029) = true := by decide

/-- V8's not-enabled vectors: with BITCNT 8 only STOP_RISE, with BITCNT 7 only DATA_RISE. -/
theorem test_bitcnt_chooses_the_rise :
    nextHas (exec .dataRiseNext (atState .dataPulse2 1101 8 0xB2 0)) (fun t => t.seq = .dataPulse2) = true ∧
    nextHas (exec .stopRise (atState .dataPulse2 1090 7 0x59 0)) (fun t => t.seq = .dataPulse2) = true := by decide

theorem test_stopRise : nextHas (exec .stopRise (atState .dataPulse2 1101 8 0xB2 0)) (fun t =>
    t.seq = .stopPulse0 && t.clk = 1 && t.tReady = 1106) = true := by decide

theorem test_stopFall : nextHas (exec .stopFall (atState .stopPulse0 1106 8 0xB2 0)) (fun t =>
    t.seq = .stopPulse1 && t.clk = 0 && t.tReady = 1106) = true := by decide

theorem test_stopSample : nextHas (exec .stopSample (atState .stopPulse1 1106 8 0xB2 1)) (fun t =>
    t.seq = .stopPulse2 && t.shreg = 0xB2 && t.tReady = 1106) = true := by decide

theorem test_deselect : nextHas (exec .deselect (atState .stopPulse2 1106 8 0xB2 0)) (fun t =>
    t.seq = .stopPulse3 && t.cs = 1) = true := by decide

theorem test_stamp : nextHas (exec .stamp (atState .stopPulse3 1106 8 0xB2 0)) (fun t =>
    t.seq = .idle0 && t.tDesel = 1106 && t.result = 0xB2 && !t.busy && t.trace = [(1106, .stamp 1106 0xB2)]) = true := by
  decide

/-! ## Witnesses: states and operands that meet the hypotheses of the statements -/

/-- P1's engine with one move to come. -/
def withMove (m : Move) (s : State) : State := { s with agenda := [m] }

theorem witness_ResetEventAbandonsEverything :
    (withMove .reset (atState .dataPulse1 1018 0 0 0)).agenda = .reset :: [] := by decide

theorem inv_idleP1_call : (withMove (.call 0x0202) idleP1).Inv :=
  ⟨by decide, by decide, by decide, by decide, by decide, by decide, by decide⟩

/-- For StepKeepsTheInvariant and StepKeepsTheParameters: a whole conversion. -/
theorem witness_StepKeepsTheInvariant : (withMove (.call 0x0202) idleP1).Inv ∧
    ∃ t, step (withMove (.call 0x0202) idleP1) = .next t ∧ t.trace.length = 37 :=
  ⟨inv_idleP1_call, _, rfl, by decide⟩

theorem witness_StepKeepsTheTraceOrdered : (withMove (.call 0x0202) idleP1).TraceOrdered ∧
    ∃ t, step (withMove (.call 0x0202) idleP1) = .next t ∧ t.trace.length = 37 :=
  ⟨⟨by decide, by decide, by decide⟩, _, rfl, by decide⟩

theorem witness_ReadyStaysUntilReset : (withMove (.call 0x0202) idleP1).nextMove ≠ .reset ∧
    (withMove (.call 0x0202) idleP1).ready = true ∧
    ∃ t, step (withMove (.call 0x0202) idleP1) = .next t ∧ t.trace.length = 37 :=
  ⟨by decide, by decide, _, rfl, by decide⟩

theorem witness_OnlyTheStampWritesTDeselAndResult :
    (∃ t, exec .deselect (atState .stopPulse2 1106 8 0xB2 0) = .next t ∧ t.seq = .stopPulse3) ∧
    Instr.deselect ≠ .stamp ∧ ∀ opd, Instr.deselect ≠ .conv opd :=
  ⟨⟨_, rfl, by decide⟩, by decide, fun _ h => nomatch h⟩

theorem witness_StepRunsTheCalledCommand : (withMove (.call 0x0202) idleP1).agenda = .call 0x0202 :: [] := by decide

/-- Both clauses: a CONV word, and INIT. -/
theorem witness_StepRunsThePresentedCommand :
    (withMove (.present 0x0202) idleP1).agenda = .present 0x0202 :: [] ∧ (withMove (.present 0x0202) idleP1).busy = false ∧
    decodeCommand 0x0202 = .conv 2 ∧
    (withMove (.present 0x0100) idleP1).agenda = .present 0x0100 :: [] ∧ (withMove (.present 0x0100) idleP1).busy = false ∧
    decodeCommand 0x0100 = .init 0 := by decide

theorem witness_StepRunsTheSelectedMicroStep :
    (withMove .go (atState .dataPulse2 1101 8 0xB2 0)).agenda = .go :: [] ∧
    decode (.state (atState .dataPulse2 1101 8 0xB2 0).seq.code (atState .dataPulse2 1101 8 0xB2 0).bitcnt) = .ok .stopRise := by
  decide

theorem witness_TimePassesAndNothingElse : (withMove (.pass 0) idleP1).agenda = .pass 0 :: [] ∧
    (withMove (.passUntil 999) idleP1).agenda = .passUntil 999 :: [] ∧ (withMove .await idleP1).agenda = .await :: [] := by
  decide

theorem witness_DecodeInvertsEncode : (Instr.reservedOpc10To1F 0x1F 0xAB).wellFormed = true := by decide

theorem witness_EachStateSelectsOneMicroStep :
    bitcntFits .dataPulse2 1 = true ∧ bitcntFits .dataPulse2 7 = true ∧ bitcntFits .dataPulse2 8 = true ∧
    bitcntFits .idle0 15 = true := by decide

theorem witness_InitConfiguresThePinsAndIdlesTheLines : State.reset.seq = .idle0 := by decide

theorem witness_InitTwiceIsInitOnce : ∃ t, exec (.init 0xFF) State.reset = .next t ∧ t.trace.length = 7 := ⟨_, rfl, by decide⟩

/-- For ConvCompletesAndRestoresIdle, ConvReturnsTheEightDataDraws, ConvProducesItsTrace, ConvWritesAndCounts and
ConvAgreesWithItsMicroSteps, whose hypotheses are the same: with channel pins, and without them. -/
theorem witness_conv_from_idle : (idleP1.seq = .idle0 ∧ idleP1.ready = true ∧ idleP1.tReady ≤ idleP1.time ∧
      idleP1.cfg.hasChan = true) ∧
    (({ idleP1 with cfg := threePin } : State).ready = true ∧ threePin.hasChan = false) := by decide

/-- Each of the three clauses: equal low bits, a fixed channel, no channel pins; and a hold pending. -/
theorem witness_ConvIgnoresTheOtherOperandBits :
    (chanBits 0x02 = chanBits 0x06 ∧ ∃ t, exec (.conv 0x02) idleP1 = .next t ∧ t.trace.length = 37) ∧
    (wired.fixedChannel ≠ none ∧ ∃ t, exec (.conv 0x02) { idleP1 with cfg := wired } = .next t ∧ t.trace.length = 37) ∧
    (threePin.hasChan = false ∧ ∃ t, exec (.conv 0x02) { idleP1 with cfg := threePin } = .next t ∧ t.trace.length = 35) ∧
    (∃ t, exec (.conv 0x02) { idleP1 with tReady := 1001 } = .next t ∧ t.trace = []) :=
  ⟨⟨by decide, _, rfl, by decide⟩, ⟨by decide, _, rfl, by decide⟩, ⟨by decide, _, rfl, by decide⟩, _, rfl, by decide⟩

/-- Both clauses; the levels differ from P1's in the start and the stop sample only. -/
theorem witness_NoPinWriteDependsOnData : (∃ t, exec (.conv 0x02) idleP1 = .next t ∧ t.trace.length = 37) ∧
    ∀ k, 1 ≤ k → k ≤ 8 →
      ({ idleP1 with dinScript := [1, 1, 0, 1, 1, 0, 0, 1, 0, 0], dinCount := 0 } : State).dinAt k = idleP1.dinAt k := by
  refine ⟨⟨_, rfl, by decide⟩, fun k h1 h8 => ?_⟩
  interval_cases k <;> rfl

theorem witness_AcceptTakesTheCommand : idleP1.seq = .idle0 ∧ idleP1.tReady ≤ idleP1.time ∧ idleP1.ready = true ∧
    ({ idleP1 with cmd := some 0x0206 } : State).cmd = some 0x0206 ∧ opcOf 0x0206 = 0x02 := by decide

/-- The premises the pin and hold hypotheses of the micro-step statements share. -/
def Fires (q : SeqState) (k : BitVec 4) : Prop :=
  (atState q 1000 k 0 0).seq = q ∧ (atState q 1000 k 0 0).tReady ≤ (atState q 1000 k 0 0).time ∧
    (atState q 1000 k 0 0).cfg.hasChan = true ∧ (atState q 1000 k 0 0).ready = true ∧ (atState q 1000 k 0 0).bitcnt = k

/-- From Ready: every pin has its mode. -/
theorem test_ready_gives_modes : ∀ q ∈ [SeqState.channelSet0, .stopPulse2], (atState q 1000 0 0 0).modeC0 = .output ∧
    (atState q 1000 0 0 0).modeC1 = .output ∧ (atState q 1000 0 0 0).modeCs = .output ∧
    (atState q 1000 0 0 0).modeClk = .output ∧ (atState q 1000 0 0 0).modeDin = .inputPullup := by decide

/-- For the statements of CHSET0 to START_SAMPLE (and SamplesNeedAPulledUpInput's hold). -/
theorem witness_micro_steps_of_setup : Fires .channelSet0 0 ∧ Fires .channelSet1 0 ∧ Fires .deadTimeWait0 0 ∧
    Fires .deadTimeWait1 0 ∧ Fires .selectedSetup0 0 ∧ Fires .startPulse0 0 ∧ Fires .startPulse1 0 := by
  unfold Fires; decide

/-- For the statements of the data pulses; BITCNT at both ends of its range. -/
theorem witness_micro_steps_of_data : Fires .startPulse2 0 ∧ Fires .dataPulse0 0 ∧ Fires .dataPulse1 0 ∧ Fires .dataPulse1 7 ∧
    Fires .dataPulse2 0 ∧ Fires .dataPulse2 7 := by unfold Fires; decide

/-- For the statements of STOP_RISE to STAMP. -/
theorem witness_micro_steps_of_stop : Fires .dataPulse2 8 ∧ Fires .stopPulse0 8 ∧ Fires .stopPulse1 8 ∧ Fires .stopPulse2 8 ∧
    Fires .stopPulse3 8 := by unfold Fires; decide

/-- Both clauses of DtpassTestsTheDeadTime, at the boundary. -/
theorem witness_DtpassTestsTheDeadTime :
    2 ≤ (elapsed 32 (nowAt Params.default 1108) 1106).toNat ∧ ¬ 2 ≤ (elapsed 32 (nowAt Params.default 1107) 1106).toNat := by
  decide

/-- A hold, a wrong state, and a false guard of its own. -/
theorem witness_DisabledMicroStepsOnlyLetTimePass :
    (fromState .dataFall = some .dataPulse0 ∧ ¬((atState .dataPulse1 1000 0 0 0).seq = .dataPulse0)) ∧
    (fromState .startRise = some .selectedSetup0 ∧
      ¬(({ atState .selectedSetup0 1001 0 0 0 with tReady := 1002 } : State).tReady ≤ 1001)) ∧
    (fromState .stopRise = some .dataPulse2 ∧ ownGuard .stopRise (atState .dataPulse2 1090 7 0 0) = false) ∧
    (fromState .accept = some .idle0 ∧ idleP1.ready = true ∧ ownGuard .accept idleP1 = false) := by decide

theorem witness_TheSequenceIsLinear : fromState .stamp = some .stopPulse3 ∧
    ∃ t, exec .stamp (atState .stopPulse3 1106 8 0xB2 0) = .next t ∧ t.seq = .idle0 := ⟨rfl, _, rfl, rfl⟩

/-- For BusyEngineCompletes, with nothing at the port, and ConversionInProgressIsNeverRefused. -/
theorem witness_busy_with_the_invariant : (withMove .go (atState .dataPulse1 1018 7 0x59 0)).Inv ∧
    (withMove .go (atState .dataPulse1 1018 7 0x59 0)).busy = true ∧
    (withMove .go (atState .dataPulse1 1018 7 0x59 0)).agenda = .go :: [] ∧
    (withMove .await (atState .dataPulse1 1018 7 0x59 0)).agenda = .await :: [] ∧
    (atState .dataPulse1 1018 7 0x59 0).cmd = none ∧ [Move.pass 3].filterMap Move.command = [] :=
  ⟨⟨by decide, by decide, by decide, by decide, by decide, by decide, by decide⟩, by decide, by decide, by decide, by decide,
    by decide⟩

theorem witness_ReservedRowsAreRefused : (Instr.reservedOpc80ToFF 0x82 0).isReserved = true ∧
    encode (.reservedOpc80ToFF 0x82 0) = .word 0x8200 := by decide

theorem witness_PresentingAReservedWordIsRefused : opcOf 0x0000 ≠ 0x01 ∧ opcOf 0x0000 ≠ 0x02 ∧ idleP1.busy = false ∧
    (withMove (.present 0x0000) idleP1).agenda = .present 0x0000 :: [] ∧
    (withMove (.call 0x0000) idleP1).agenda = .call 0x0000 :: [] := by decide

theorem witness_CommandsWhileBusyAreRefused :
    (withMove (.present 0x0201) (atState .dataPulse0 1050 3 5 0)).busy = true ∧
    (withMove (.present 0x0201) (atState .dataPulse0 1050 3 5 0)).agenda = .present 0x0201 :: [] := by decide

theorem witness_ConvBeforeInitIsRefused : State.reset.seq = .idle0 ∧ State.reset.ready = false := by decide

/-- Both clauses, and an absent pin. -/
theorem witness_PinWriteNeedsAnOutput : Pin.c1 ≠ .din ∧ idleP1.outputEnable .c1 = true ∧
    State.reset.outputEnable .cs = false ∧ ({ idleP1 with cfg := threePin } : State).outputEnable .c1 = false := by decide

theorem witness_SamplesNeedAPulledUpInput :
    ∀ q ∈ [SeqState.startPulse1, .dataPulse1, .stopPulse1],
      ({ State.reset with seq := q } : State).modeDin ≠ .inputPullup ∧ ({ State.reset with seq := q } : State).tReady ≤ 0 ∧
      ({ State.reset with seq := q } : State).bitcnt.toNat < 8 := by decide

theorem witness_TheWireShowsTheLatch : (idleP1.outputEnable .clk = true ∧ idleP1.latch .clk = some low) ∧
    ∃ t, pinWrite .cs low idleP1 = .next t ∧ t.cs = low := ⟨by decide, _, rfl, rfl⟩

theorem witness_ElapsedIsExactWithinOneTurn : 0 < 2 ^ 32 ∧ 4294967295 < 2 ^ 32 ∧ 4294967295 ≤ 4294967297 ∧
    4294967297 - 4294967295 < 2 ^ 32 := by decide

theorem witness_DeadTimeNeverPassesEarly : 4294967295 ≤ 4294967297 ∧
    deadTimeOk Params.default (nowAt Params.default 4294967297) (nowAt Params.default 4294967295) = true := by decide

theorem witness_EightShiftInsHoldTheDraws : 8 ≤ 8 ∧ 0 < 8 ∧ ∀ r ∈ [(0x00 : Byte), 0xFF],
    ([1, 0, 1, 1, 0, 0, 1, 0].foldl shiftIn r).toNat = 0xB2 := by decide

end Sys2Proof.Tests
end

section
/-! PROOFS. The parameters of 00_scope.md R6 to R8 are no state (R32 (b)): each operation, each line of a command, each
instruction and each move leaves them as they are. -/

namespace Sys2Proof.Machine

/-! What an operation keeps -/

/-- Whatever next state `f` answers, `g` of it is as before. -/
def Keeps {α : Type} (g : State → α) (f : State → Result) : Prop := ∀ s t, f s = .next t → g t = g s

section
variable {α : Type} {g : State → α}

theorem keeps_next {u : State → State} (hu : ∀ s, g (u s) = g s) : Keeps g fun s => .next (u s) := by
  intro s t h
  cases h
  exact hu s

theorem Keeps.andThen {f k : State → Result} (hf : Keeps g f) (hk : Keeps g k) :
    Keeps g fun s => (f s).andThen k := by
  intro s t h
  obtain ⟨u, hu, ht⟩ := andThen_eq_next h
  exact (hk u t ht).trans (hf s u hu)

/-- A list of operations keeps what each of them keeps. -/
theorem keeps_runLines {ls : List (State → Result)} (h : ∀ l ∈ ls, Keeps g l) : Keeps g (runLines ls) := by
  induction ls with
  | nil => exact keeps_next fun _ => rfl
  | cons l ls ih =>
    obtain ⟨hl, hls⟩ := List.forall_mem_cons.1 h
    exact hl.andThen (ih hls)

end

/-! The operations on pins -/

theorem keeps_cfg_pinCfg (p : Pin) (m : PinMode) : Keeps State.cfg (pinCfg p m) := by
  intro s t h
  unfold pinCfg at h
  split at h
  · cases h; simp
  · cases h

theorem keeps_cfg_pinWrite (p : Pin) (v : State → Bit) : Keeps State.cfg fun s => pinWrite p (v s) s := by
  intro s t h
  obtain ⟨-, -, -, rfl⟩ := pinWrite_eq_next h
  simp

theorem keeps_cfg_pinRead {use : Bit → State → Result} (hu : ∀ b, Keeps State.cfg (use b)) :
    Keeps State.cfg (pinRead use) := by
  intro s t h
  unfold pinRead at h
  split at h
  · exact (hu _ _ t h).trans (by simp)
  · cases h

/-! The effects of the events -/

theorem keeps_cfg_acceptEffect (opd : Byte) : Keeps State.cfg (acceptEffect opd) := keeps_next fun _ => rfl

theorem keeps_cfg_chset0Effect : Keeps State.cfg chset0Effect :=
  (keeps_cfg_pinWrite .c0 fun s => chanLevel0 s.chsel).andThen (keeps_next fun _ => rfl)

theorem keeps_cfg_chset1Effect : Keeps State.cfg chset1Effect :=
  (keeps_cfg_pinWrite .c1 fun s => chanLevel1 s.chsel).andThen (keeps_next fun _ => rfl)

theorem keeps_cfg_dtpassEffect : Keeps State.cfg dtpassEffect := keeps_next fun _ => rfl

theorem keeps_cfg_selectEffect : Keeps State.cfg selectEffect :=
  (keeps_cfg_pinWrite .cs fun _ => low).andThen (keeps_next fun _ => rfl)

theorem keeps_cfg_riseEffect : Keeps State.cfg riseEffect :=
  (keeps_cfg_pinWrite .clk fun _ => high).andThen (keeps_next fun _ => rfl)

theorem keeps_cfg_fallEffect : Keeps State.cfg fallEffect :=
  (keeps_cfg_pinWrite .clk fun _ => low).andThen (keeps_next fun _ => rfl)

theorem keeps_cfg_startSampleEffect : Keeps State.cfg startSampleEffect :=
  keeps_cfg_pinRead fun _ => keeps_next fun _ => rfl

theorem keeps_cfg_dataSampleEffect : Keeps State.cfg dataSampleEffect := by
  intro s t h
  unfold dataSampleEffect at h
  split at h
  · refine keeps_cfg_pinRead (fun b => ?_) s t h
    exact keeps_next fun _ => rfl
  · cases h

theorem keeps_cfg_stopSampleEffect : Keeps State.cfg stopSampleEffect :=
  keeps_cfg_pinRead fun _ => keeps_next fun _ => rfl

theorem keeps_cfg_deselectEffect : Keeps State.cfg deselectEffect :=
  (keeps_cfg_pinWrite .cs fun _ => high).andThen (keeps_next fun _ => rfl)

theorem keeps_cfg_stampEffect : Keeps State.cfg stampEffect := keeps_next fun _ => rfl

/-! The host commands -/

theorem keeps_cfg_initLines (c : Params) : ∀ l ∈ initLines c, Keeps State.cfg l := by
  have hw (p : Pin) (v : Bit) : Keeps State.cfg (pinWrite p v) := keeps_cfg_pinWrite p fun _ => v
  cases hc : c.hasChan <;> simp [initLines, hc, keeps_cfg_pinCfg, hw]

theorem keeps_cfg_afterHold {f : State → Result} (hf : Keeps State.cfg f) : Keeps State.cfg (afterHold f) :=
  fun s t h => (hf s.awaitHold t h).trans (by simp)

theorem keeps_cfg_afterDeadTime {f : State → Result} (hf : Keeps State.cfg f) : Keeps State.cfg (afterDeadTime f) :=
  fun s t h => (hf s.awaitDeadTime t h).trans (by simp)

/-- The lines of one clock pulse, whatever its sample does with the level it reads (R94 lines 4 to 6). -/
theorem keeps_cfg_pulse {sample : State → Result} (hs : Keeps State.cfg sample) :
    ∀ l ∈ [afterHold riseEffect, afterHold fallEffect, afterHold sample], Keeps State.cfg l := by
  simp [keeps_cfg_afterHold, keeps_cfg_riseEffect, keeps_cfg_fallEffect, hs]

theorem keeps_cfg_convLines (c : Params) : ∀ l ∈ convLines c, Keeps State.cfg l := by
  simp only [convLines, List.forall_mem_append]
  refine ⟨⟨⟨⟨⟨?channel, ?select⟩, ?start⟩, ?data⟩, ?stop⟩, ?completion⟩
  case channel =>
    split <;> simp [keeps_cfg_afterHold, keeps_cfg_chset0Effect, keeps_cfg_chset1Effect]
  case select =>
    simp [keeps_cfg_afterDeadTime, keeps_cfg_dtpassEffect, keeps_cfg_afterHold, keeps_cfg_selectEffect]
  case start => exact keeps_cfg_pulse keeps_cfg_startSampleEffect
  case data =>
    intro l hl
    obtain ⟨pulse, hpulse, hmem⟩ := List.mem_flatten.1 hl
    rw [List.eq_of_mem_replicate hpulse] at hmem
    exact keeps_cfg_pulse keeps_cfg_dataSampleEffect l hmem
  case stop => exact keeps_cfg_pulse keeps_cfg_stopSampleEffect
  case completion => simp [keeps_cfg_afterHold, keeps_cfg_deselectEffect, keeps_cfg_stampEffect]

theorem keeps_cfg_execInit (opd : Byte) : Keeps State.cfg (execInit opd) := by
  intro s t h
  unfold execInit at h
  split at h
  · cases h
  · exact keeps_runLines (keeps_cfg_initLines s.cfg) { s with cmd := none } t h

theorem keeps_cfg_execConv (opd : Byte) : Keeps State.cfg (execConv opd) := by
  intro s t h
  unfold execConv at h
  split at h
  · cases h
  split at h
  · split at h
    · exact (keeps_cfg_acceptEffect opd).andThen (keeps_runLines (keeps_cfg_convLines s.cfg)) s t h
    · cases h; simp
  · cases h

/-! The micro-steps -/

/-- A micro-step keeps the parameters if its effect does: its next state is a matter of PHASE and SUB alone (R110). -/
theorem microStep_cfg {q q' : SeqState} {gd : Bool} {f : State → Result} (hf : Keeps State.cfg f) {s t : State}
    (h : microStep q gd f q' s = .next t) : t.cfg = s.cfg := by
  obtain ⟨-, -, -, u, hu, rfl⟩ | ⟨-, rfl⟩ := microStep_eq_next h
  · simpa using hf s u hu
  · simp

theorem keeps_cfg_execAccept : Keeps State.cfg execAccept := by
  intro s t h
  unfold execAccept at h
  split at h
  · cases h; simp
  · split at h
    · cases h
    · exact microStep_cfg (keeps_cfg_acceptEffect _) h

/-! Every instruction, every move -/

theorem keeps_cfg_exec (i : Instr) : Keeps State.cfg (exec i) := by
  intro s t h
  cases i with
  | init opd => exact keeps_cfg_execInit opd s t h
  | conv opd => exact keeps_cfg_execConv opd s t h
  | reservedOpc00 _ | reservedOpc03 _ | reservedOpc04To07 _ _ | reservedOpc08To0F _ _ | reservedOpc10To1F _ _
  | reservedOpc20To3F _ _ | reservedOpc40To7F _ _ | reservedOpc80ToFF _ _ => cases h
  | accept => exact keeps_cfg_execAccept s t h
  | chset0 => exact microStep_cfg keeps_cfg_chset0Effect h
  | chset1 => exact microStep_cfg keeps_cfg_chset1Effect h
  | dtpass => exact microStep_cfg keeps_cfg_dtpassEffect h
  | select => exact microStep_cfg keeps_cfg_selectEffect h
  | startRise | dataRiseFirst | dataRiseNext | stopRise => exact microStep_cfg keeps_cfg_riseEffect h
  | startFall | dataFall | stopFall => exact microStep_cfg keeps_cfg_fallEffect h
  | startSample => exact microStep_cfg keeps_cfg_startSampleEffect h
  | dataSample => exact microStep_cfg keeps_cfg_dataSampleEffect h
  | stopSample => exact microStep_cfg keeps_cfg_stopSampleEffect h
  | deselect => exact microStep_cfg keeps_cfg_deselectEffect h
  | stamp => exact microStep_cfg keeps_cfg_stampEffect h

/-- A step that answers a next state ran the fetched instruction, or is a move that runs none. -/
theorem step_eq_next {s t : State} (h : step s = .next t) :
    (∃ i u, fetch s = .run i u ∧ exec i u = .next t) ∨ fetch s = .became t := by
  unfold step at h
  split at h
  · next i u hf => exact .inl ⟨i, u, hf, h⟩
  · next u hf => cases h; exact .inr hf
  · cases h

/-- The state a move comes to, before the instruction it selects, if it selects one. -/
def Fetched.state? : Fetched → Option State
  | .run _ u => some u
  | .became u => some u
  | .stop _ => none

/-- No move writes the parameters: not the passing of time, not a word at the port, and not reset (R180). -/
theorem fetchMove_cfg {m : Move} {s u : State} (h : (fetchMove m s).state? = some u) : u.cfg = s.cfg := by
  cases m with
  | pass _ | passUntil _ | await | reset => cases h; simp
  | call w => cases h; rfl
  | present w =>
    simp only [fetchMove] at h
    split at h <;> cases h
    rfl
  | go =>
    simp only [fetchMove, fetchMicroStep] at h
    split at h <;> cases h
    rfl

theorem fetch_cfg {s u : State} (h : (fetch s).state? = some u) : u.cfg = s.cfg :=
  (fetchMove_cfg h).trans s.takeMove_cfg

/-- Settles O6: a step is a move and at most one instruction, and neither writes the parameters. -/
theorem stepKeepsTheParameters : Obligations.StepKeepsTheParameters := by
  intro s t h
  obtain ⟨i, u, hf, ht⟩ | hf := step_eq_next h
  · exact (keeps_cfg_exec i u t ht).trans (fetch_cfg (congrArg Fetched.state? hf))
  · exact fetch_cfg (congrArg Fetched.state? hf)

end Sys2Proof.Machine
end

section
/-! PROOFS. What a step can be, and what each shared operation leaves: the moves, the two host commands from their
acceptance to their completion, and the effects of the events. -/

namespace Sys2Proof.Machine

/-! ## The moves -/

theorem time_le_await (s : State) : s.time ≤ s.await.time := by
  unfold State.await
  split
  · simp; omega
  · exact time_le_awaitHold s

/-- A move that is no reset leaves the engine alone, before the instruction it selects (R91, R127). -/
theorem fetchMove_sameEngine {m : Move} {s u : State} (hm : m ≠ .reset) (h : (fetchMove m s).state? = some u) :
    SameEngine s u ∧ s.time ≤ u.time := by
  cases m with
  | pass d => cases h; exact ⟨rfl, Nat.le_add_right ..⟩
  | passUntil t => cases h; exact ⟨rfl, Nat.le_add_right ..⟩
  | await => cases h; exact ⟨sameEngine_await s, time_le_await s⟩
  | call w => cases h; exact ⟨rfl, le_rfl⟩
  | present w =>
    simp only [fetchMove] at h
    split at h <;> cases h
    exact ⟨rfl, le_rfl⟩
  | go =>
    simp only [fetchMove, fetchMicroStep] at h
    split at h <;> cases h
    exact ⟨rfl, le_rfl⟩
  | reset => exact absurd rfl hm

/-- The reset event is a step by itself, whenever it comes (R180). -/
theorem step_reset {s : State} (h : s.nextMove = .reset) : step s = .next s.takeMove.resetEvent := by
  simp [step, fetch, fetchMove, h]

/-- Everything a step can answer with a next state: the reset event; or what the next move comes to, which has the engine
of before, and at most one instruction run in it. -/
theorem step_cases {s t : State} (h : step s = .next t) :
    s.nextMove = .reset ∧ t = s.takeMove.resetEvent ∨
    s.nextMove ≠ .reset ∧ ∃ u, SameEngine s u ∧ s.time ≤ u.time ∧ (t = u ∨ ∃ i, exec i u = .next t) := by
  by_cases hm : s.nextMove = .reset
  · rw [step_reset hm] at h
    cases h
    exact .inl ⟨hm, rfl⟩
  · obtain ⟨i, u, hf, ht⟩ | hf := step_eq_next h
    · obtain ⟨he, hle⟩ := fetchMove_sameEngine hm (congrArg Fetched.state? hf)
      exact .inr ⟨hm, u, he, hle, .inr ⟨i, ht⟩⟩
    · obtain ⟨he, hle⟩ := fetchMove_sameEngine hm (congrArg Fetched.state? hf)
      exact .inr ⟨hm, t, he, hle, .inl rfl⟩

/-! ## The host commands -/

/-- INIT in (IDLE, 0), with the whole state it leaves (R93). -/
theorem execInit_idle {s : State} (opd : Byte) (hq : s.seq = .idle0) : execInit opd s = .next { s with
    modeDin := .inputPullup
    modeCs := .output
    modeClk := .output
    cs := high
    clk := low
    modeC0 := if s.cfg.hasChan then .output else s.modeC0
    modeC1 := if s.cfg.hasChan then .output else s.modeC1
    cmd := none
    trace := s.trace ++
      ([Event.cfg .din .inputPullup, .cfg .cs .output, .cfg .clk .output, .write .cs high, .write .clk low] ++
        (if s.cfg.hasChan then [Event.cfg .c0 .output, .cfg .c1 .output] else [])).map fun e => (s.time, e) } := by
  rw [execInit, if_neg (by simp [State.busy, hq])]
  cases hc : s.cfg.hasChan <;>
    simp [initLines, hc, pinCfg, pinWrite, Params.hasPin, neededMode, State.mode, State.setMode, State.setLatch,
      State.record]

/-- INIT runs in (IDLE, 0) only (R92). -/
theorem idle_of_execInit (opd : Byte) {s t : State} (h : execInit opd s = .next t) : s.seq = .idle0 := by
  unfold execInit at h
  split at h
  · cases h
  · next hb => simpa [State.busy] using hb

/-- The writes of the channel pins, where there are channel pins, run through (R94 line 1). -/
theorem channel_lines {s : State} (hr : s.ready = true) : ∃ t,
    (∀ ls, runLines ((if s.cfg.hasChan then [afterHold chset0Effect, afterHold chset1Effect] else []) ++ ls) s =
      runLines ls t) ∧ Kept s t := by
  by_cases hc : s.cfg.hasChan = true
  · obtain ⟨a, ha, la, -⟩ := chset0_line hr hc
    obtain ⟨b, hb, lb, -⟩ := chset1_line (la.kept.ready hr) (by rw [la.kept.cfg, hc])
    refine ⟨b, fun ls => ?_, la.kept.trans lb.kept⟩
    rw [if_pos hc, List.cons_append, List.cons_append, List.nil_append, runLines_of_next ha, runLines_of_next hb]
  · exact ⟨s, fun ls => by rw [if_neg hc, List.nil_append], Kept.refl s⟩

/-- What the lines of CONV leave: CS and CLK idle, T_DESEL stamped with NOW, no hold pending (R94, R101). -/
structure Completed (s t : State) : Prop where
  kept : Kept s t
  cs : t.cs = high
  clk : t.clk = low
  tDesel : t.tDesel = nowAt s.cfg t.time
  tReady : t.tReady = t.time

/-- With Ready every line of CONV runs through, from first to last (R94). -/
theorem convLines_complete {s : State} (hr : s.ready = true) :
    ∃ t, runLines (convLines s.cfg) s = .next t ∧ Completed s t := by
  obtain ⟨a, runA, keptA⟩ := channel_lines hr
  obtain ⟨b, runB, lineB, -⟩ := dtpass_line a
  have keptB := keptA.trans lineB.kept
  obtain ⟨c, runC, lineC, -, bitcntC, -⟩ := select_line (keptB.ready hr)
  have keptC := keptB.trans lineC.kept
  obtain ⟨d, _, _, _, runD, pulseD, -, bitcntD⟩ := start_pulse (keptC.ready hr)
  have keptD := keptC.trans pulseD.kept
  obtain ⟨e, _, _, _, runE, pulsesE⟩ :=
    data_pulses Config.nData (keptD.ready hr) (by simp [bitcntD, bitcntC])
  have keptE := keptD.trans pulsesE.kept
  obtain ⟨f, _, _, _, runF, pulseF, -⟩ := stop_pulse (keptE.ready hr)
  have keptF := keptE.trans pulseF.kept
  obtain ⟨g, runG, lineG, -, csG, clkG⟩ := deselect_line (keptF.ready hr)
  have keptG := keptF.trans lineG.kept
  obtain ⟨t, runT, lineT, -, -, tDeselT, -, -, -, csT, clkT⟩ := stamp_line g
  refine ⟨t, ?_, keptG.trans lineT.kept, csT.trans csG, ?_, ?_, lineT.tReady⟩
  · simp only [convLines, List.append_assoc, List.cons_append, List.nil_append]
    rw [runA, runLines_of_next runB, runLines_of_next runC, runD, runE, runF, runLines_of_next runG,
      runLines_of_next runT, runLines_nil]
  · rw [clkT, clkG, pulseF.clk]
  · rw [tDeselT, keptG.cfg]

/-- Everything CONV can answer with a next state: it runs in (IDLE, 0) with Ready only, and completes unless a hold is
pending (R92, R94, R99). -/
theorem execConv_eq_next (opd : Byte) {s t : State} (h : execConv opd s = .next t) :
    s.seq = .idle0 ∧ s.ready = true ∧
      ((∃ u, acceptEffect opd s = .next u ∧ Completed u t) ∨ t = s.idleAway) := by
  unfold execConv at h
  split at h
  · cases h
  next hb =>
  have hq : s.seq = .idle0 := by simpa [State.busy] using hb
  split at h
  · next hr =>
    split at h
    · rw [acceptEffect_eq, andThen_next] at h
      obtain ⟨v, hv, hd⟩ := convLines_complete (s := { s with
        chsel := if s.cfg.hasChan then chanOf s.cfg opd else s.chsel
        cmd := none
        tReady := s.time
        trace := s.trace ++ [(s.time, .accept (cmd16 0x02 opd))] }) hr
      cases hv.symm.trans h
      exact ⟨hq, hr, .inl ⟨_, acceptEffect_eq opd s, hd⟩⟩
    · cases h
      exact ⟨hq, hr, .inr rfl⟩
  · cases h

/-! ## What an effect leaves, whatever it is run in -/

/-- An effect that is one pin write and then `k` leaves the write done, recorded, and `k` (R52, R110). -/
theorem write_eq_next {p : Pin} {v : Bit} {k : State → State} {s u : State}
    (h : (pinWrite p v s).andThen (fun t => .next (k t)) = .next u) :
    u = k ((s.setLatch p v).record (.write p v)) := by
  obtain ⟨t, hw, ht⟩ := andThen_eq_next h
  obtain ⟨-, -, -, rfl⟩ := pinWrite_eq_next hw
  cases ht
  rfl

/-- An effect that is one DIN read and then `k` of the level leaves the draw taken, recorded, and `k` (R54, R110). -/
theorem read_eq_next {k : Bit → State → State} {s u : State}
    (h : pinRead (fun b t => .next (k b t)) s = .next u) :
    u = k (s.dinAt 0) (s.takeDin.record (.read (s.dinAt 0))) := by
  unfold pinRead at h
  split at h <;> cases h
  rfl

/-- A data sample is taken only where BITCNT has room for it (R144). -/
theorem dataSample_eq_next {s u : State} (h : dataSampleEffect s = .next u) :
    s.bitcnt.toNat < Config.nData ∧
      u = ({ s.takeDin.record (.read (s.dinAt 0)) with
        shreg := shiftIn s.shreg (s.dinAt 0), bitcnt := s.bitcnt + 1 } : State).endEvent s.cfg.tCkl := by
  unfold dataSampleEffect at h
  split at h
  · next hk => exact ⟨hk, read_eq_next h⟩
  · cases h

/-- C0 is written only where there are channel pins (R52, R112). -/
theorem hasChan_of_chset0 {s u : State} (h : chset0Effect s = .next u) : u.cfg.hasChan = true := by
  obtain ⟨t, hw, -⟩ := andThen_eq_next h
  obtain ⟨hc, -⟩ := pinWrite_eq_next hw
  rw [keeps_cfg_chset0Effect s u h]
  exact hc

end Sys2Proof.Machine
end

section
/-! PROOFS. The invariant of the engine (10_state.md R24, R27, R31): reset establishes it and every step keeps it. -/

namespace Sys2Proof.Machine

/-! ## The invariant -/

/-- The invariant says nothing of what stands around the engine, but that time does not go back. -/
theorem State.Inv.later {s t : State} (h : s.Inv) (he : SameEngine s t) (ht : s.time ≤ t.time) : t.Inv := by
  rw [he]
  exact ⟨h.tDesel_lt, h.ready_of_busy, h.cs_level, h.clk_level, h.bitcnt_fits, h.hasChan_of_channelSet,
    fun hq => (h.no_hold_idle hq).trans ht⟩

/-- What the invariant asks of a state in (IDLE, 0). -/
theorem inv_of_idle {t : State} (hq : t.seq = .idle0) (hd : t.tDesel < 2 ^ t.cfg.wT)
    (hl : t.ready = true → t.cs = high ∧ t.clk = low) (ht : t.tReady ≤ t.time) : t.Inv where
  tDesel_lt := hd
  ready_of_busy hb := by simp [State.busy, hq] at hb
  cs_level hr := by rw [hq]; exact (hl hr).1
  clk_level hr := by rw [hq]; exact (hl hr).2
  bitcnt_fits := by rw [hq]; rfl
  hasChan_of_channelSet hp := by rw [hq] at hp; cases hp
  no_hold_idle _ := ht

/-- The reset event comes to the invariant from any state: Ready is false and nothing is pending (R33). -/
theorem inv_resetEvent (s : State) : s.resetEvent.Inv :=
  inv_of_idle rfl (Nat.two_pow_pos _) (fun hr => by simp [State.ready] at hr) (Nat.zero_le _)

/-- An engine with Ready and its registers as the invariant has them in state `q`, be the sequencer there or not. -/
structure FitsAt (q : SeqState) (s : State) : Prop where
  tDesel_lt : s.tDesel < 2 ^ s.cfg.wT
  ready : s.ready = true
  cs : s.cs = csLevel q
  clk : s.clk = clkLevel q
  bitcnt : bitcntFits q s.bitcnt = true

/-- With Ready, what the invariant says of the registers. -/
theorem State.Inv.fitsAt {s : State} (h : s.Inv) (hr : s.ready = true) : FitsAt s.seq s :=
  ⟨h.tDesel_lt, hr, h.cs_level hr, h.clk_level hr, h.bitcnt_fits⟩

/-- The registers fit, so the sequencer may go there. -/
theorem FitsAt.inv_goto {q : SeqState} {s : State} (h : FitsAt q s)
    (hc : q.phase = .channelSet → s.cfg.hasChan = true) (ht : q = .idle0 → s.tReady ≤ s.time) : (s.goto q).Inv :=
  ⟨h.tDesel_lt, fun _ => h.ready, fun _ => h.cs, fun _ => h.clk, h.bitcnt, hc, ht⟩

/-! Each effect takes an engine that fits its from-state to one that fits its next state (R111 to R126). -/

section
variable {q : SeqState} {s u : State}

theorem FitsAt.accept {opd : Byte} (q' : SeqState) (h : FitsAt .idle0 s) (hu : acceptEffect opd s = .next u)
    (hcs : csLevel q' = high) (hclk : clkLevel q' = low) (hk : bitcntFits q' s.bitcnt = true) : FitsAt q' u := by
  cases hu
  exact ⟨h.tDesel_lt, h.ready, h.cs.trans hcs.symm, h.clk.trans hclk.symm, hk⟩

theorem FitsAt.chset0 (h : FitsAt .channelSet0 s) (hu : chset0Effect s = .next u) : FitsAt .channelSet1 u := by
  obtain rfl := write_eq_next hu
  exact ⟨h.tDesel_lt, h.ready, h.cs, h.clk, h.bitcnt⟩

theorem FitsAt.chset1 (h : FitsAt .channelSet1 s) (hu : chset1Effect s = .next u) : FitsAt .deadTimeWait0 u := by
  obtain rfl := write_eq_next hu
  exact ⟨h.tDesel_lt, h.ready, h.cs, h.clk, h.bitcnt⟩

theorem FitsAt.dtpass (h : FitsAt .deadTimeWait0 s) (hu : dtpassEffect s = .next u) : FitsAt .deadTimeWait1 u := by
  cases hu
  exact ⟨h.tDesel_lt, h.ready, h.cs, h.clk, h.bitcnt⟩

theorem FitsAt.select (h : FitsAt .deadTimeWait1 s) (hu : selectEffect s = .next u) : FitsAt .selectedSetup0 u := by
  obtain rfl := write_eq_next hu
  exact ⟨h.tDesel_lt, h.ready, rfl, h.clk, rfl⟩

theorem FitsAt.rise (q' : SeqState) (h : FitsAt q s) (hu : riseEffect s = .next u) (hcs : csLevel q' = csLevel q)
    (hclk : clkLevel q' = high) (hk : bitcntFits q' s.bitcnt = true) : FitsAt q' u := by
  obtain rfl := write_eq_next hu
  exact ⟨h.tDesel_lt, h.ready, h.cs.trans hcs.symm, hclk.symm, hk⟩

theorem FitsAt.fall (q' : SeqState) (h : FitsAt q s) (hu : fallEffect s = .next u) (hcs : csLevel q' = csLevel q)
    (hclk : clkLevel q' = low) (hk : bitcntFits q' s.bitcnt = true) : FitsAt q' u := by
  obtain rfl := write_eq_next hu
  exact ⟨h.tDesel_lt, h.ready, h.cs.trans hcs.symm, hclk.symm, hk⟩

theorem FitsAt.startSample (h : FitsAt .startPulse1 s) (hu : startSampleEffect s = .next u) :
    FitsAt .startPulse2 u := by
  obtain rfl := read_eq_next hu
  exact ⟨h.tDesel_lt, h.ready, h.cs, h.clk, h.bitcnt⟩

theorem FitsAt.dataSample (h : FitsAt .dataPulse1 s) (hu : dataSampleEffect s = .next u) :
    FitsAt .dataPulse2 u := by
  obtain ⟨hk, rfl⟩ := dataSample_eq_next hu
  have hn : Config.nData = 8 := rfl
  refine ⟨h.tDesel_lt, h.ready, h.cs, h.clk, ?_⟩
  simp [bitcntFits]
  omega

theorem FitsAt.stopSample (h : FitsAt .stopPulse1 s) (hu : stopSampleEffect s = .next u) :
    FitsAt .stopPulse2 u := by
  obtain rfl := read_eq_next hu
  exact ⟨h.tDesel_lt, h.ready, h.cs, h.clk, h.bitcnt⟩

theorem FitsAt.deselect (h : FitsAt .stopPulse2 s) (hu : deselectEffect s = .next u) : FitsAt .stopPulse3 u := by
  obtain rfl := write_eq_next hu
  exact ⟨h.tDesel_lt, h.ready, rfl, h.clk, h.bitcnt⟩

theorem FitsAt.stamp (h : FitsAt .stopPulse3 s) (hu : stampEffect s = .next u) : FitsAt .idle0 u := by
  cases hu
  exact ⟨Nat.mod_lt _ (Nat.two_pow_pos _), h.ready, h.cs, h.clk, rfl⟩

end

/-! ## Every instruction keeps the invariant -/

/-- A micro-step out of a busy state keeps the invariant if its effect leads to a state that meets it. -/
theorem microStep_inv {q q' : SeqState} {g : Bool} {f : State → Result} {s t : State} (hs : s.Inv)
    (h : microStep q g f q' s = .next t) (hq : q ≠ .idle0)
    (hf : ∀ u, f s = .next u → g = true → FitsAt q s → (u.goto q').Inv) : t.Inv := by
  obtain ⟨rfl, -, hg, u, hu, rfl⟩ | ⟨-, rfl⟩ := microStep_eq_next h
  · exact hf u hu hg (hs.fitsAt (hs.ready_of_busy (by simpa [State.busy] using hq)))
  · exact hs.later (sameEngine_idleAway s) (by simp)

theorem execInit_inv (opd : Byte) {s t : State} (hs : s.Inv) (h : execInit opd s = .next t) : t.Inv := by
  have hq := idle_of_execInit opd h
  cases (execInit_idle opd hq).symm.trans h
  exact inv_of_idle hq hs.tDesel_lt (fun _ => ⟨rfl, rfl⟩) (hs.no_hold_idle hq)

theorem execConv_inv (opd : Byte) {s t : State} (hs : s.Inv) (h : execConv opd s = .next t) : t.Inv := by
  obtain ⟨hq, -, ⟨u, hu, hd⟩ | rfl⟩ := execConv_eq_next opd h
  · cases hu
    refine inv_of_idle (hd.kept.seq.trans hq) ?_ (fun _ => ⟨hd.cs, hd.clk⟩) hd.tReady.le
    rw [hd.tDesel, hd.kept.cfg]
    exact Nat.mod_lt _ (Nat.two_pow_pos _)
  · exact hs.later (sameEngine_idleAway s) (by simp)

/-- ACCEPT leads to a channel state only where there are channel pins (R111). -/
theorem execAccept_inv {s t : State} (hs : s.Inv) (h : execAccept s = .next t) : t.Inv := by
  unfold execAccept at h
  split at h
  · cases h
    exact hs.later (sameEngine_idleAway s) (by simp)
  split at h
  · cases h
  next hr =>
  obtain ⟨hq, -, -, u, hu, rfl⟩ | ⟨-, rfl⟩ := microStep_eq_next h
  · have hfit : FitsAt .idle0 s := hq ▸ hs.fitsAt (by simpa [hq] using hr)
    have hcfg : u.cfg = s.cfg := keeps_cfg_acceptEffect _ s u hu
    split
    · next hc => exact (hfit.accept _ hu rfl rfl rfl).inv_goto (fun _ => hcfg ▸ hc) nofun
    · exact (hfit.accept _ hu rfl rfl rfl).inv_goto nofun nofun
  · exact hs.later (sameEngine_idleAway s) (by simp)

/-- Every instruction keeps the invariant. -/
theorem exec_inv {i : Instr} {s t : State} (hs : s.Inv) (h : exec i s = .next t) : t.Inv := by
  cases i with
  | init opd => exact execInit_inv opd hs h
  | conv opd => exact execConv_inv opd hs h
  | reservedOpc00 _ | reservedOpc03 _ | reservedOpc04To07 _ _ | reservedOpc08To0F _ _ | reservedOpc10To1F _ _
  | reservedOpc20To3F _ _ | reservedOpc40To7F _ _ | reservedOpc80ToFF _ _ => cases h
  | accept => exact execAccept_inv hs h
  | chset0 =>
    exact microStep_inv hs h nofun fun _ hu _ fits => (fits.chset0 hu).inv_goto (fun _ => hasChan_of_chset0 hu) nofun
  | chset1 => exact microStep_inv hs h nofun fun _ hu _ fits => (fits.chset1 hu).inv_goto nofun nofun
  | dtpass => exact microStep_inv hs h nofun fun _ hu _ fits => (fits.dtpass hu).inv_goto nofun nofun
  | select => exact microStep_inv hs h nofun fun _ hu _ fits => (fits.select hu).inv_goto nofun nofun
  | startRise =>
    exact microStep_inv hs h nofun fun _ hu _ fits =>
      (fits.rise .startPulse0 hu rfl rfl fits.bitcnt).inv_goto nofun nofun
  | startFall =>
    exact microStep_inv hs h nofun fun _ hu _ fits =>
      (fits.fall .startPulse1 hu rfl rfl fits.bitcnt).inv_goto nofun nofun
  | startSample => exact microStep_inv hs h nofun fun _ hu _ fits => (fits.startSample hu).inv_goto nofun nofun
  | dataRiseFirst =>
    refine microStep_inv hs h nofun fun _ hu _ fits => (fits.rise .dataPulse0 hu rfl rfl ?_).inv_goto nofun nofun
    have hk : s.bitcnt.toNat = 0 := of_decide_eq_true fits.bitcnt
    simp [bitcntFits, hk, Config.nData]
  | dataFall =>
    exact microStep_inv hs h nofun fun _ hu _ fits =>
      (fits.fall .dataPulse1 hu rfl rfl fits.bitcnt).inv_goto nofun nofun
  | dataSample => exact microStep_inv hs h nofun fun _ hu _ fits => (fits.dataSample hu).inv_goto nofun nofun
  | dataRiseNext =>
    exact microStep_inv hs h nofun fun _ hu hg fits =>
      (fits.rise .dataPulse0 hu rfl rfl hg).inv_goto nofun nofun
  | stopRise =>
    exact microStep_inv hs h nofun fun _ hu hg fits =>
      (fits.rise .stopPulse0 hu rfl rfl hg).inv_goto nofun nofun
  | stopFall =>
    exact microStep_inv hs h nofun fun _ hu _ fits =>
      (fits.fall .stopPulse1 hu rfl rfl fits.bitcnt).inv_goto nofun nofun
  | stopSample => exact microStep_inv hs h nofun fun _ hu _ fits => (fits.stopSample hu).inv_goto nofun nofun
  | deselect => exact microStep_inv hs h nofun fun _ hu _ fits => (fits.deselect hu).inv_goto nofun nofun
  | stamp =>
    refine microStep_inv hs h nofun fun _ hu _ fits => (fits.stamp hu).inv_goto nofun fun _ => ?_
    cases hu
    exact le_rfl

/-- Settles O4: the reset event establishes the invariant, a move leaves the engine alone, and an instruction keeps it. -/
theorem stepKeepsTheInvariant : Obligations.StepKeepsTheInvariant := by
  intro s t hs h
  obtain ⟨-, rfl⟩ | ⟨-, u, he, hle, rfl | ⟨i, hi⟩⟩ := step_cases h
  · exact inv_resetEvent _
  · exact hs.later he hle
  · exact exec_inv (hs.later he hle) hi

/-! ## Reset -/

/-- Settles O1: each value is read off the state right after reset. -/
theorem resetLeavesTheStatedValues : Obligations.ResetLeavesTheStatedValues :=
  ⟨rfl, rfl, rfl, rfl, rfl, rfl, fun p => by cases p <;> rfl⟩

/-- Settles O2: the step is the reset event alone, and that event shows no pin event and no response. -/
theorem resetEventAbandonsEverything : Obligations.ResetEventAbandonsEverything := by
  intro s rest ha
  have htrace : s.takeMove.resetEvent.trace = s.trace ++ [(s.time, .reset)] := by simp
  refine ⟨s.takeMove.resetEvent, step_reset (by simp [State.nextMove, ha]), rfl, rfl, rfl, rfl, ?modes, htrace,
    ?pins, ?responses, rfl, rfl, ?agenda, rfl, rfl⟩
  case modes => intro p; cases p <;> rfl
  case pins => intro o; rw [htrace, pinEvents_append]; exact List.append_nil _
  case responses => rw [htrace, responses_append]; exact List.append_nil _
  case agenda => simp [ha]

/-- Settles O3: the state right after reset is in (IDLE, 0) without Ready, and its trace is empty. -/
theorem resetMeetsTheInvariant : Obligations.ResetMeetsTheInvariant :=
  ⟨inv_of_idle rfl (by decide) (fun hr => by cases hr) le_rfl, List.Pairwise.nil, nofun, rfl⟩

end Sys2Proof.Machine
end

section
/-! PROOFS. The modes, T_DESEL, RESULT and the responses (10_state.md R22 to R24, R26, R30), and who writes them. -/

namespace Sys2Proof.Machine

/-! ## What lasts from one command to the next -/

/-- The modes, which only INIT writes, and T_DESEL, RESULT and the responses, which only STAMP writes. -/
structure Lasting where
  mode : Pin → PinMode
  tDesel : Nat
  result : Byte
  responses : List (Nat × Byte)

/-- What of a state lasts from one command to the next. -/
def State.lasting (s : State) : Lasting := ⟨s.mode, s.tDesel, s.result, responses s.trace⟩

/-- Only an event with a response adds one (R30). -/
theorem lasting_record {e : Event} (he : e.response = none) (s : State) :
    (s.record e).lasting = s.lasting := by
  have hr : responses [(s.time, e)] = [] := by simp [responses, shownBy_singleton, he]
  show Lasting.mk s.mode s.tDesel s.result (responses (s.trace ++ [(s.time, e)])) = _
  rw [responses_append, hr, List.append_nil]
  rfl

theorem lasting_setLatch (p : Pin) (v : Bit) (s : State) : (s.setLatch p v).lasting = s.lasting := by
  cases p <;> rfl

/-- An effect of one pin write changes nothing that lasts if what follows the write does not. -/
theorem keeps_lasting_write (p : Pin) (v : State → Bit) {k : State → State}
    (hk : ∀ s, (k s).lasting = s.lasting) :
    Keeps State.lasting fun s => (pinWrite p (v s) s).andThen fun t => .next (k t) := by
  intro s t h
  rw [write_eq_next h, hk, lasting_record rfl, lasting_setLatch]

/-- An effect of one DIN read changes nothing that lasts if what it does with the level does not. -/
theorem keeps_lasting_read {k : Bit → State → State} (hk : ∀ b s, (k b s).lasting = s.lasting) :
    Keeps State.lasting (pinRead fun b t => .next (k b t)) := by
  intro s t h
  rw [read_eq_next h, hk, lasting_record rfl]
  rfl

theorem keeps_lasting_dataSample : Keeps State.lasting dataSampleEffect := by
  intro s t h
  obtain ⟨-, rfl⟩ := dataSample_eq_next h
  exact lasting_record (e := .read (s.dinAt 0)) rfl s.takeDin

theorem keeps_lasting_accept (opd : Byte) : Keeps State.lasting (acceptEffect opd) := by
  intro s t h
  cases h
  exact lasting_record (e := .accept (cmd16 0x02 opd)) rfl s

theorem keeps_lasting_dtpass : Keeps State.lasting dtpassEffect := by
  intro s t h
  cases h
  exact lasting_record (e := .now s.now) rfl s

/-- A micro-step changes nothing that lasts if its effect does not: the sequencer state is not among it (R110). -/
theorem microStep_lasting {q q' : SeqState} {g : Bool} {f : State → Result} {s t : State}
    (h : microStep q g f q' s = .next t) (hf : Keeps State.lasting f) : t.lasting = s.lasting := by
  obtain ⟨-, -, -, u, hu, rfl⟩ | ⟨-, rfl⟩ := microStep_eq_next h
  · exact hf s u hu
  · rfl

theorem execAccept_lasting {s t : State} (h : execAccept s = .next t) : t.lasting = s.lasting := by
  unfold execAccept at h
  split at h
  · cases h; rfl
  · split at h
    · cases h
    · exact microStep_lasting h (keeps_lasting_accept _)

/-- Every instruction but INIT, CONV and STAMP leaves alone what lasts. -/
theorem exec_lasting {i : Instr} {s t : State} (h : exec i s = .next t) (hinit : ∀ opd, i ≠ .init opd)
    (hconv : ∀ opd, i ≠ .conv opd) (hstamp : i ≠ .stamp) : t.lasting = s.lasting := by
  cases i with
  | init opd => exact absurd rfl (hinit opd)
  | conv opd => exact absurd rfl (hconv opd)
  | stamp => exact absurd rfl hstamp
  | reservedOpc00 _ | reservedOpc03 _ | reservedOpc04To07 _ _ | reservedOpc08To0F _ _ | reservedOpc10To1F _ _
  | reservedOpc20To3F _ _ | reservedOpc40To7F _ _ | reservedOpc80ToFF _ _ => cases h
  | accept => exact execAccept_lasting h
  | dtpass => exact microStep_lasting h keeps_lasting_dtpass
  | chset0 | chset1 | select | startRise | startFall | dataRiseFirst | dataFall | dataRiseNext | stopRise | stopFall
  | deselect => exact microStep_lasting h (keeps_lasting_write _ _ fun _ => rfl)
  | startSample | stopSample => exact microStep_lasting h (keeps_lasting_read fun _ _ => rfl)
  | dataSample => exact microStep_lasting h keeps_lasting_dataSample

/-- Settles O8: INIT leaves a state that is known, every other instruction but CONV and STAMP what lasts. -/
theorem onlyTheStampWritesTDeselAndResult : Obligations.OnlyTheStampWritesTDeselAndResult := by
  intro i s t h hstamp hconv
  by_cases hinit : ∃ opd, i = .init opd
  · obtain ⟨opd, rfl⟩ := hinit
    cases (execInit_idle opd (idle_of_execInit opd h)).symm.trans h
    refine ⟨rfl, rfl, ?_⟩
    cases hc : s.cfg.hasChan <;> simp [responses, shownBy, Event.response]
  · have ho := exec_lasting h (fun opd hi => hinit ⟨opd, hi⟩) hconv hstamp
    exact ⟨congrArg Lasting.tDesel ho, congrArg Lasting.result ho, congrArg Lasting.responses ho⟩

/-- Ready is a matter of the parameters and the modes (R23). -/
theorem ready_eq_of_mode {s t : State} (hc : t.cfg = s.cfg) (hm : t.mode = s.mode) : t.ready = s.ready := by
  have hdin : t.modeDin = s.modeDin := congrFun hm .din
  have hcs : t.modeCs = s.modeCs := congrFun hm .cs
  have hclk : t.modeClk = s.modeClk := congrFun hm .clk
  have hc0 : t.modeC0 = s.modeC0 := congrFun hm .c0
  have hc1 : t.modeC1 = s.modeC1 := congrFun hm .c1
  simp only [State.ready, hc, hdin, hcs, hclk, hc0, hc1]

/-- INIT sets the modes Ready asks for, so with Ready it changes none (R23, R93). -/
theorem execInit_mode (opd : Byte) {s t : State} (h : execInit opd s = .next t) (hr : s.ready = true) :
    t.mode = s.mode := by
  cases (execInit_idle opd (idle_of_execInit opd h)).symm.trans h
  obtain ⟨hdin, hcs, hclk, hch⟩ := (ready_iff s).1 hr
  funext p
  cases p <;> simp +contextual [State.mode, *]

theorem execConv_mode (opd : Byte) {s t : State} (h : execConv opd s = .next t) : t.mode = s.mode := by
  obtain ⟨-, -, ⟨u, hu, hd⟩ | rfl⟩ := execConv_eq_next opd h
  · cases hu
    exact funext hd.kept.mode
  · rfl

/-- With Ready no instruction changes a mode. -/
theorem exec_mode {i : Instr} {s t : State} (h : exec i s = .next t) (hr : s.ready = true) : t.mode = s.mode := by
  by_cases hi : (∃ opd, i = .init opd) ∨ (∃ opd, i = .conv opd) ∨ i = .stamp
  · obtain ⟨opd, rfl⟩ | ⟨opd, rfl⟩ | rfl := hi
    · exact execInit_mode opd h hr
    · exact execConv_mode opd h
    · obtain ⟨-, -, -, u, hu, rfl⟩ | ⟨-, rfl⟩ := microStep_eq_next h
      · cases hu; rfl
      · rfl
  · simp only [not_or, not_exists] at hi
    obtain ⟨hinit, hconv, hstamp⟩ := hi
    exact congrArg Lasting.mode (exec_lasting h hinit hconv hstamp)

/-- Settles O7: neither a move that is no reset nor, with Ready, an instruction changes a mode. -/
theorem readyStaysUntilReset : Obligations.ReadyStaysUntilReset := by
  intro s t h hm hr
  suffices hmode : t.mode = s.mode from
    ⟨(ready_eq_of_mode (stepKeepsTheParameters s t h) hmode).trans hr, congrFun hmode⟩
  obtain ⟨hreset, -⟩ | ⟨-, u, he, -, rfl | ⟨i, hi⟩⟩ := step_cases h
  · exact absurd hreset hm
  · rw [he]; rfl
  · have hu : u.mode = s.mode ∧ u.ready = s.ready := by rw [he]; exact ⟨rfl, rfl⟩
    exact (exec_mode hi (hu.2.trans hr)).trans hu.1

end Sys2Proof.Machine
end

section
/-! PROOFS. The pin space (20_memory.md R52 to R54): a write to an output and to no other pin, what an observer sees of it,
and a read of a pin that is no pulled-up input. -/

namespace Sys2Proof.Machine

/-! ## The latches -/

/-- A driven output exists, is needed as an output and has that mode (30_encoding.md R75). -/
theorem outputEnable_iff (s : State) (p : Pin) :
    s.outputEnable p = true ↔ s.cfg.hasPin p = true ∧ neededMode p = .output ∧ s.mode p = .output := by
  simp [State.outputEnable, and_assoc]

@[simp] theorem mode_setLatch (s : State) (p p' : Pin) (v : Bit) : (s.setLatch p v).mode p' = s.mode p' := by
  cases p <;> rfl

@[simp] theorem mode_record (s : State) (e : Event) (p : Pin) : (s.record e).mode p = s.mode p := by
  cases p <;> rfl

@[simp] theorem latch_record (s : State) (e : Event) (p : Pin) : (s.record e).latch p = s.latch p := by
  cases p <;> rfl

/-- An output that exists holds what was last written to it (10_state.md R21). -/
theorem latch_setLatch_same {s : State} {p : Pin} (v : Bit) (hp : s.cfg.hasPin p = true)
    (hd : neededMode p = .output) : (s.setLatch p v).latch p = some v := by
  cases p with
  | cs | clk => rfl
  | din => cases hd
  | c0 | c1 => exact if_pos hp

theorem latch_setLatch_of_ne {s : State} {p p' : Pin} (v : Bit) (h : p' ≠ p) :
    (s.setLatch p v).latch p' = s.latch p' := by
  cases p' <;> simp [State.latch, h.symm]

/-! ## Writing a pin -/

/-- PinWrite where it is not allowed (R52, 60_exceptions.md R163 (d)). -/
theorem pinWrite_of_not_output {s : State} {p : Pin} (v : Bit) (h : s.outputEnable p = false) :
    pinWrite p v s = .refused (.writeToNonOutput p) :=
  if_neg fun hc => by simp [(outputEnable_iff s p).2 hc] at h

theorem outputEnable_din (s : State) : s.outputEnable .din = false := by
  simp [State.outputEnable, neededMode]

/-- Settles O52: the write is the latch's update and its trace entry, or it is refused. -/
theorem pinWriteNeedsAnOutput : Obligations.PinWriteNeedsAnOutput := by
  intro s p v
  constructor
  · rintro ⟨-, he⟩
    obtain ⟨hp, hd, hm⟩ := (outputEnable_iff s p).1 he
    refine ⟨_, pinWrite_output hp hd hm, ?latch, ?trace, fun p' hne => ?others, fun p' => ?modes, ?time, ?hold⟩
    case latch => rw [latch_record, latch_setLatch_same v hp hd]
    case others => rw [latch_record, latch_setLatch_of_ne v hne]
    all_goals simp
  · rintro (rfl | he)
    · exact pinWrite_of_not_output v (outputEnable_din s)
    · exact pinWrite_of_not_output v he

/-! ## Seeing a pin -/

/-- An observer sees the latch of a driven output (R53). -/
theorem wire_of_latch {s : State} {p : Pin} {v : Bit} (he : s.outputEnable p = true) (hl : s.latch p = some v) :
    s.wire p = v := by
  simp [State.wire, he, hl]

/-- What is seen of a driven output is a matter of its latch and the time. -/
theorem wire_congr {s t : State} {p : Pin} (he : t.outputEnable p = s.outputEnable p) (hl : t.latch p = s.latch p)
    (ht : t.time = s.time) : t.wire p = s.wire p := by
  simp only [State.wire, he, hl, ht]

/-- No pin write changes which outputs are driven. -/
theorem outputEnable_written (s : State) (p p' : Pin) (v : Bit) (e : Event) :
    ((s.setLatch p v).record e).outputEnable p' = s.outputEnable p' := by
  simp [State.outputEnable]

/-- Settles O54: a write that happens changes its own latch, and no pin's drive. -/
theorem theWireShowsTheLatch : Obligations.TheWireShowsTheLatch := by
  refine ⟨fun s p v => wire_of_latch, fun s p v t h => ?_⟩
  obtain ⟨hp, hd, hm, rfl⟩ := pinWrite_eq_next h
  constructor
  · refine wire_of_latch ?_ ?_
    · rw [outputEnable_written, outputEnable_iff]
      exact ⟨hp, hd, hm⟩
    · rw [latch_record, latch_setLatch_same v hp hd]
  · intro p' hne _
    refine wire_congr (outputEnable_written ..) ?_ (by simp)
    rw [latch_record, latch_setLatch_of_ne v hne]

/-! ## Reading DIN -/

/-- PinRead where it is not allowed (R54, R163 (d)). -/
theorem pinRead_of_not_pullUp {use : Bit → State → Result} {s : State} (h : s.modeDin ≠ .inputPullup) :
    pinRead use s = .refused .readOfNonInput := if_neg h

/-- A micro-step that is enabled is refused if its effect is. -/
theorem microStep_refused {q q' : SeqState} {g : Bool} {f : State → Result} {s : State} {r : Refusal}
    (hq : s.seq = q) (ht : s.tReady ≤ s.time) (hg : g = true) (hf : f s = .refused r) :
    microStep q g f q' s = .refused r := by
  simp [microStep, hq, ht, hg, hf]

/-- Settles O53: each sample is enabled and its effect is a read of DIN. -/
theorem samplesNeedAPulledUpInput : Obligations.SamplesNeedAPulledUpInput := by
  intro s hm ht
  refine ⟨fun hq => ?start, fun hq hk => ?data, fun hq => ?stop⟩
  case start => exact microStep_refused hq ht rfl (pinRead_of_not_pullUp hm)
  case data => exact microStep_refused hq ht rfl ((if_pos hk).trans (pinRead_of_not_pullUp hm))
  case stop => exact microStep_refused hq ht rfl (pinRead_of_not_pullUp hm)

end Sys2Proof.Machine
end

section
/-! PROOFS. Waiting (20_memory.md R57, 41_sequencer_phases.md R127): the times at which it can end, and that a conversion in
progress always goes on (60_exceptions.md R163). -/

namespace Sys2Proof.Machine

/-! ## The times at which waiting can end -/

/-- There is nothing left to wait for exactly where the dead-time test passes (R102, R114). -/
theorem deadTimeLeft_eq_zero_iff (c : Params) (now last : Nat) :
    deadTimeLeft c now last = 0 ↔ deadTimeOk c now last = true := by
  simp [deadTimeLeft, deadTimeOk, Nat.sub_eq_zero_iff_le]

/-- Wherever waiting ends the micro-step may fire: the hold is over and the dead-time test passes (R97, R102). -/
theorem await_time_allowed (s : State) : s.time ≤ s.await.time ∧ s.tReady ≤ s.await.time ∧
    (s.seq = .deadTimeWait0 → s.cfg.tCsh ≤ (elapsed s.cfg.wT (nowAt s.cfg s.await.time) s.tDesel).toNat) := by
  refine ⟨time_le_await s, ?_, fun hq => ?_⟩
  · rw [← s.await_tReady]
    exact tReady_le_await s
  · rw [State.await, if_pos hq]
    exact of_decide_eq_true (deadTimeOk_awaitDeadTime s)

/-- Waiting ends with the hold where the sequencer waits for nothing else, or needs to wait no longer. -/
theorem await_time_eq_awaitHold {s : State}
    (h : s.seq = .deadTimeWait0 → deadTimeOk s.cfg (nowAt s.cfg s.awaitHold.time) s.tDesel = true) :
    s.await.time = s.awaitHold.time := by
  unfold State.await
  split
  · next hq =>
    have hleft : deadTimeLeft s.cfg s.awaitHold.now s.tDesel = 0 := (deadTimeLeft_eq_zero_iff ..).2 (h hq)
    rw [State.awaitDeadTime_time, hleft, Nat.add_zero]
  · rfl

/-- The slack that takes the wait for a hold to time `u`. -/
theorem awaitHold_time_of_gap {s : State} {u : Nat} (ht : s.time ≤ u) (hr : s.tReady ≤ u) :
    ({ s with gaps := (u - max s.time s.tReady) :: s.gaps } : State).awaitHold.time = u := by
  simp [State.gapAt]
  omega

/-- Settles O47: the slack is what remains of the wait once the hold is over, and then the dead-time test passes. -/
theorem waitingEndsAtEveryAllowedTime : Obligations.WaitingEndsAtEveryAllowedTime := by
  intro s u
  constructor
  · rintro ⟨ht, hr, hd⟩
    have hu := awaitHold_time_of_gap ht hr
    refine ⟨_, (await_time_eq_awaitHold fun hq => ?_).trans hu⟩
    rw [hu]
    exact decide_eq_true (hd hq)
  · rintro ⟨g, rfl⟩
    exact await_time_allowed { s with gaps := g :: s.gaps }

/-! ## A conversion in progress -/

/-- A state code and a BITCNT in range select a micro-step that leaves that state (30_encoding.md R78). -/
theorem decodeState_of_fits {q : SeqState} {k : BitVec 4} (h : bitcntFits q k = true) :
    ∃ i, decodeState q.code k = .ok i ∧ fromState i = some q := by
  cases q with
  | dataPulse2 =>
    obtain ⟨-, hk⟩ : 0 < k.toNat ∧ k.toNat ≤ Config.nData := by simpa [bitcntFits] using h
    obtain hlt | heq := Nat.lt_or_eq_of_le hk
    · exact ⟨.dataRiseNext, if_pos hlt, rfl⟩
    · exact ⟨.stopRise, (if_neg heq.not_lt).trans (if_pos heq), rfl⟩
  | _ => exact ⟨_, rfl, rfl⟩

/-- A micro-step whose effect answers a next state in its from-state answers one in every state (R110). -/
theorem microStep_answers {q q' : SeqState} {g : Bool} {f : State → Result} {s : State}
    (hf : s.seq = q → ∃ u, f s = .next u) : ∃ t, microStep q g f q' s = .next t := by
  by_cases he : s.seq = q ∧ s.tReady ≤ s.time ∧ g = true
  · obtain ⟨hq, ht, hg⟩ := he
    obtain ⟨u, hu⟩ := hf hq
    exact ⟨_, microStep_enabled hq ht hg hu⟩
  · exact ⟨_, microStep_disabled he⟩

/-- With the pins configured and the invariant no micro-step out of a busy state is refused. -/
theorem exec_answers {i : Instr} {q : SeqState} {s : State} (hs : s.Inv) (hr : s.ready = true)
    (hi : fromState i = some q) (hq : q ≠ .idle0) : ∃ t, exec i s = .next t := by
  obtain ⟨hdin, hcs, hclk, hch⟩ := (ready_iff s).1 hr
  cases i with
  | init _ | conv _ | reservedOpc00 _ | reservedOpc03 _ | reservedOpc04To07 _ _ | reservedOpc08To0F _ _
  | reservedOpc10To1F _ _ | reservedOpc20To3F _ _ | reservedOpc40To7F _ _ | reservedOpc80ToFF _ _ => cases hi
  | accept => cases hi; exact absurd rfl hq
  | chset0 =>
    refine microStep_answers fun hseq => ?_
    have hc := hs.hasChan_of_channelSet (by rw [hseq]; rfl)
    exact ⟨_, chset0Effect_eq hc (hch hc).1⟩
  | chset1 =>
    refine microStep_answers fun hseq => ?_
    have hc := hs.hasChan_of_channelSet (by rw [hseq]; rfl)
    exact ⟨_, chset1Effect_eq hc (hch hc).2⟩
  | dtpass => exact microStep_answers fun _ => ⟨_, dtpassEffect_eq s⟩
  | select => exact microStep_answers fun _ => ⟨_, selectEffect_eq hcs⟩
  | startRise | dataRiseFirst | dataRiseNext | stopRise => exact microStep_answers fun _ => ⟨_, riseEffect_eq hclk⟩
  | startFall | dataFall | stopFall => exact microStep_answers fun _ => ⟨_, fallEffect_eq hclk⟩
  | startSample => exact microStep_answers fun _ => ⟨_, startSampleEffect_eq hdin⟩
  | dataSample =>
    refine microStep_answers fun hseq => ?_
    have hfits := hs.bitcnt_fits
    rw [hseq] at hfits
    exact ⟨_, dataSampleEffect_eq hdin (of_decide_eq_true hfits)⟩
  | stopSample => exact microStep_answers fun _ => ⟨_, stopSampleEffect_eq hdin⟩
  | deselect => exact microStep_answers fun _ => ⟨_, deselectEffect_eq hcs⟩
  | stamp => exact microStep_answers fun _ => ⟨_, stampEffect_eq s⟩

theorem step_await {s : State} (h : s.nextMove = .await) : step s = .next s.takeMove.await := by
  simp [step, fetch, fetchMove, h]

/-- The engine goes: the micro-step its state selects is run (R128). -/
theorem step_go {s : State} {i : Instr} (h : s.nextMove = .go) (hd : decodeState s.seq.code s.bitcnt = .ok i) :
    step s = exec i s.takeMove := by
  simp [step, fetch, fetchMove, fetchMicroStep, h, hd]

/-- Settles O46: waiting always answers; going runs the micro-step selected, whose pins and BITCNT the invariant gives. -/
theorem conversionInProgressIsNeverRefused : Obligations.ConversionInProgressIsNeverRefused := by
  rintro s rest hs hb (ha | ha)
  · obtain ⟨i, hd, hi⟩ := decodeState_of_fits hs.bitcnt_fits
    rw [step_go (by simp [State.nextMove, ha]) hd]
    exact exec_answers (hs.later rfl le_rfl) (hs.ready_of_busy hb) hi (by simpa [State.busy] using hb)
  · exact ⟨_, step_await (by simp [State.nextMove, ha])⟩

end Sys2Proof.Machine
end

section
/-! PROOFS. The trace (20_memory.md R62, 40_host_commands.md R105 (c)): time passes and events are recorded at the present
time, so it stays in the order of time; cmd_ready as it shows it follows the events that begin and end BUSY. -/

namespace Sys2Proof.Machine

/-! ## A trace in order, with the level of cmd_ready it shows -/

/-- The trace is in the order of time, nothing in it lies ahead, and it shows cmd_ready at `level`. -/
structure State.Shows (level : Bool) (s : State) : Prop where
  sorted : (s.trace.map Prod.fst).Pairwise (· ≤ ·)
  past : ∀ e ∈ s.trace, e.1 ≤ s.time
  cmdReady : lastReady (cmdReadyChanges s.trace) = level

theorem traceOrdered_iff (s : State) : s.TraceOrdered ↔ s.Shows s.cmdReady :=
  ⟨fun h => ⟨h.sorted, h.past, h.cmdReady⟩, fun h => ⟨h.sorted, h.past, h.cmdReady⟩⟩

section
variable {level : Bool} {s t : State}

/-- Time may pass. -/
theorem State.Shows.later (h : s.Shows level) (htr : t.trace = s.trace) (ht : s.time ≤ t.time) : t.Shows level where
  sorted := by rw [htr]; exact h.sorted
  past := by rw [htr]; exact fun e he => (h.past e he).trans ht
  cmdReady := by rw [htr]; exact h.cmdReady

/-- An event at the present time keeps the order, and sets cmd_ready if it begins or ends BUSY. -/
theorem State.Shows.event {e : Event} (h : s.Shows level) (htr : t.trace = s.trace ++ [(t.time, e)])
    (ht : s.time ≤ t.time) : t.Shows (e.cmdReady.getD level) where
  sorted := by
    rw [htr, List.map_append, List.pairwise_append]
    refine ⟨h.sorted, List.pairwise_singleton .., ?_⟩
    simp only [List.mem_map, List.map_cons, List.map_nil, List.mem_singleton]
    rintro _ ⟨x, hx, rfl⟩ _ rfl
    exact (h.past x hx).trans ht
  past := by
    rw [htr]
    simp only [List.mem_append, List.mem_singleton]
    rintro x (hx | rfl)
    · exact (h.past x hx).trans ht
    · exact le_rfl
  cmdReady := by
    rw [htr]
    cases he : e.cmdReady with
    | none => exact (lastReady_of_unset _ _ he).trans h.cmdReady
    | some v => exact lastReady_of_set _ _ he

/-- Whatever leaves the sequencer where it is and only lets time pass keeps the trace ordered. -/
theorem State.TraceOrdered.later (h : s.TraceOrdered) (hq : t.seq = s.seq) (htr : t.trace = s.trace)
    (ht : s.time ≤ t.time) : t.TraceOrdered := by
  rw [traceOrdered_iff] at h ⊢
  have hc : t.cmdReady = s.cmdReady := by simp only [State.cmdReady, State.busy, hq]
  rw [hc]
  exact h.later htr ht

theorem State.TraceOrdered.idleAway (h : s.TraceOrdered) : s.idleAway.TraceOrdered :=
  h.later rfl rfl (by simp)

end

/-! ## Operations that record one event -/

/-- `f` records one event, at the time it happens, and the event sets cmd_ready to `level`, or leaves it alone. -/
def Logs (level : Option Bool) (f : State → Result) : Prop :=
  ∀ s t, f s = .next t → s.time ≤ t.time ∧ ∃ e : Event, e.cmdReady = level ∧ t.trace = s.trace ++ [(t.time, e)]

section
variable {level : Option Bool} {f : State → Result}

theorem Logs.shows (hf : Logs level f) {shown : Bool} {s t : State} (hs : s.Shows shown) (h : f s = .next t) :
    t.Shows (level.getD shown) := by
  obtain ⟨ht, e, rfl, htr⟩ := hf s t h
  exact hs.event htr ht

/-- Operations whose events leave cmd_ready alone, one after the other. -/
theorem shows_runLines {ls : List (State → Result)} (hl : ∀ l ∈ ls, Logs none l) {shown : Bool} {s t : State}
    (hs : s.Shows shown) (h : runLines ls s = .next t) : t.Shows shown := by
  induction ls generalizing s with
  | nil => cases h; exact hs
  | cons l ls ih =>
    obtain ⟨hhead, htail⟩ := List.forall_mem_cons.1 hl
    obtain ⟨u, hu, ht⟩ := andThen_eq_next h
    exact ih htail (hhead.shows hs hu) ht

/-- Time passes before the event (R97). -/
theorem Logs.afterHold (hf : Logs level f) : Logs level (afterHold f) := by
  intro s t h
  obtain ⟨ht, e, he, htr⟩ := hf s.awaitHold t h
  exact ⟨(time_le_awaitHold s).trans ht, e, he, by rw [htr, s.awaitHold_trace]⟩

theorem Logs.afterDeadTime (hf : Logs level f) : Logs level (afterDeadTime f) := by
  intro s t h
  obtain ⟨ht, e, he, htr⟩ := hf s.awaitDeadTime t h
  have hle : s.time ≤ s.awaitDeadTime.time := by simp; omega
  exact ⟨hle.trans ht, e, he, by rw [htr, s.awaitDeadTime_trace]⟩

end

theorem logs_pinCfg (p : Pin) (m : PinMode) : Logs none (pinCfg p m) := by
  intro s t h
  unfold pinCfg at h
  split at h <;> cases h
  exact ⟨by simp, .cfg p m, rfl, by simp⟩

theorem logs_pinWrite (p : Pin) (v : Bit) : Logs none (pinWrite p v) := by
  intro s t h
  obtain ⟨-, -, -, rfl⟩ := pinWrite_eq_next h
  exact ⟨by simp, .write p v, rfl, by simp⟩

/-- One pin write and the hold after it. -/
theorem logs_write {p : Pin} {v : State → Bit} {k : State → State} (ht : ∀ s, (k s).time = s.time)
    (htr : ∀ s, (k s).trace = s.trace) :
    Logs none fun s => (pinWrite p (v s) s).andThen fun t => .next (k t) := by
  intro s t h
  obtain rfl := write_eq_next h
  exact ⟨by simp [ht], .write p (v s), rfl, by simp [ht, htr]⟩

/-- One DIN read, what is done with the level, and the hold after it. -/
theorem logs_read {k : Bit → State → State} (ht : ∀ b s, (k b s).time = s.time)
    (htr : ∀ b s, (k b s).trace = s.trace) : Logs none (pinRead fun b t => .next (k b t)) := by
  intro s t h
  obtain rfl := read_eq_next h
  exact ⟨by simp [ht], .read (s.dinAt 0), rfl, by simp [ht, htr]⟩

theorem logs_accept (opd : Byte) : Logs (some false) (acceptEffect opd) := by
  intro s t h
  cases h
  exact ⟨le_rfl, .accept (cmd16 0x02 opd), rfl, rfl⟩

theorem logs_chset0 : Logs none chset0Effect := logs_write (fun _ => rfl) fun _ => rfl

theorem logs_chset1 : Logs none chset1Effect := logs_write (fun _ => rfl) fun _ => rfl

theorem logs_dtpass : Logs none dtpassEffect := by
  intro s t h
  cases h
  exact ⟨le_rfl, .now s.now, rfl, rfl⟩

theorem logs_select : Logs none selectEffect :=
  logs_write (k := fun t => ({ t with shreg := 0, bitcnt := 0 } : State).endEvent t.cfg.tCss) (fun _ => rfl) fun _ => rfl

theorem logs_rise : Logs none riseEffect := logs_write (fun _ => rfl) fun _ => rfl

theorem logs_fall : Logs none fallEffect := logs_write (fun _ => rfl) fun _ => rfl

theorem logs_startSample : Logs none startSampleEffect := logs_read (fun _ _ => rfl) fun _ _ => rfl

theorem logs_dataSample : Logs none dataSampleEffect := by
  intro s t h
  obtain ⟨-, rfl⟩ := dataSample_eq_next h
  exact ⟨le_rfl, .read (s.dinAt 0), rfl, rfl⟩

theorem logs_stopSample : Logs none stopSampleEffect := logs_read (fun _ _ => rfl) fun _ _ => rfl

theorem logs_deselect : Logs none deselectEffect := logs_write (fun _ => rfl) fun _ => rfl

theorem logs_stamp : Logs (some true) stampEffect := by
  intro s t h
  cases h
  exact ⟨le_rfl, .stamp s.now s.shreg, rfl, rfl⟩

/-! ## The host commands -/

theorem logs_initLines (c : Params) : ∀ l ∈ initLines c, Logs none l := by
  cases hc : c.hasChan <;> simp [initLines, hc, logs_pinCfg, logs_pinWrite]

/-- One clock pulse, whatever its sample does with the level it reads (R94 lines 4 to 6). -/
theorem logs_pulse {sample : State → Result} (hs : Logs none sample) :
    ∀ l ∈ [afterHold riseEffect, afterHold fallEffect, afterHold sample], Logs none l := by
  simp [logs_rise.afterHold, logs_fall.afterHold, hs.afterHold]

/-- Every line of CONV but the last, the stamp, leaves cmd_ready alone (R94). -/
theorem convLines_eq_stamp_last (c : Params) :
    ∃ ls, convLines c = ls ++ [afterHold stampEffect] ∧ ∀ l ∈ ls, Logs none l := by
  refine ⟨_ ++ [afterHold deselectEffect],
    (List.append_assoc _ [afterHold deselectEffect] [afterHold stampEffect]).symm, ?_⟩
  simp only [List.forall_mem_append]
  refine ⟨⟨⟨⟨⟨?channel, ?select⟩, ?start⟩, ?data⟩, ?stop⟩, ?deselect⟩
  case channel => split <;> simp [logs_chset0.afterHold, logs_chset1.afterHold]
  case select => simp [logs_dtpass.afterDeadTime, logs_select.afterHold]
  case start => exact logs_pulse logs_startSample
  case data =>
    intro l hl
    obtain ⟨pulse, hpulse, hmem⟩ := List.mem_flatten.1 hl
    rw [List.eq_of_mem_replicate hpulse] at hmem
    exact logs_pulse logs_dataSample l hmem
  case stop => exact logs_pulse logs_stopSample
  case deselect => simp [logs_deselect.afterHold]

/-- The lines of CONV end with cmd_ready high (R30, R94). -/
theorem shows_convLines {c : Params} {shown : Bool} {s t : State} (hs : s.Shows shown)
    (h : runLines (convLines c) s = .next t) : t.Shows true := by
  obtain ⟨ls, hls, hlogs⟩ := convLines_eq_stamp_last c
  rw [hls, runLines_append] at h
  obtain ⟨u, hu, ht⟩ := andThen_eq_next h
  rw [runLines_cons] at ht
  obtain ⟨v, hv, hn⟩ := andThen_eq_next ht
  cases hn
  exact logs_stamp.afterHold.shows (shows_runLines hlogs hs hu) hv

theorem execInit_traceOrdered (opd : Byte) {s t : State} (hs : s.TraceOrdered) (h : execInit opd s = .next t) :
    t.TraceOrdered := by
  have hready : t.cmdReady = s.cmdReady := by
    cases (execInit_idle opd (idle_of_execInit opd h)).symm.trans h
    rfl
  rw [traceOrdered_iff] at hs ⊢
  rw [hready]
  unfold execInit at h
  split at h
  · cases h
  · have hport : ({ s with cmd := none } : State).Shows s.cmdReady := hs.later rfl le_rfl
    exact shows_runLines (logs_initLines s.cfg) hport h

/-- CONV accepts and runs its lines, or lets time pass (R94, R110). -/
theorem execConv_runs (opd : Byte) {s t : State} (h : execConv opd s = .next t) :
    (∃ u, acceptEffect opd s = .next u ∧ runLines (convLines s.cfg) u = .next t) ∨ t = s.idleAway := by
  unfold execConv at h
  split at h
  · cases h
  split at h
  · split at h
    · exact .inl (andThen_eq_next h)
    · cases h; exact .inr rfl
  · cases h

/-- CONV ends in (IDLE, 0), where it began (R94). -/
theorem execConv_cmdReady (opd : Byte) {s t : State} (h : execConv opd s = .next t) : t.cmdReady = true := by
  have hq : t.seq = .idle0 := by
    obtain ⟨hq, -, ⟨u, hu, hd⟩ | rfl⟩ := execConv_eq_next opd h
    · cases hu
      exact hd.kept.seq.trans hq
    · exact hq
  simp [State.cmdReady, State.busy, hq]

theorem execConv_traceOrdered (opd : Byte) {s t : State} (hs : s.TraceOrdered) (h : execConv opd s = .next t) :
    t.TraceOrdered := by
  obtain ⟨u, hu, ht⟩ | rfl := execConv_runs opd h
  · rw [traceOrdered_iff] at hs ⊢
    rw [execConv_cmdReady opd h]
    exact shows_convLines ((logs_accept opd).shows hs hu) ht
  · exact hs.idleAway

/-! ## The micro-steps -/

/-- A micro-step keeps the trace ordered if its event sets cmd_ready to what it is in the next state. -/
theorem microStep_traceOrdered {q q' : SeqState} {g : Bool} {f : State → Result} {level : Option Bool} {s t : State}
    (hs : s.TraceOrdered) (h : microStep q g f q' s = .next t) (hf : Logs level f)
    (hlevel : ∀ u : State, level.getD (u.goto q).cmdReady = (u.goto q').cmdReady) : t.TraceOrdered := by
  obtain ⟨rfl, -, -, u, hu, rfl⟩ | ⟨-, rfl⟩ := microStep_eq_next h
  · rw [traceOrdered_iff] at hs ⊢
    have hshown := hf.shows hs hu
    rw [← hlevel u]
    exact hshown.later rfl le_rfl
  · exact hs.idleAway

theorem execAccept_traceOrdered {s t : State} (hs : s.TraceOrdered) (h : execAccept s = .next t) :
    t.TraceOrdered := by
  unfold execAccept at h
  split at h
  · cases h
    exact hs.idleAway
  split at h
  · cases h
  · refine microStep_traceOrdered hs h (logs_accept _) fun u => ?_
    split <;> rfl

/-- Every instruction keeps the trace ordered. -/
theorem exec_traceOrdered {i : Instr} {s t : State} (hs : s.TraceOrdered) (h : exec i s = .next t) :
    t.TraceOrdered := by
  cases i with
  | init opd => exact execInit_traceOrdered opd hs h
  | conv opd => exact execConv_traceOrdered opd hs h
  | reservedOpc00 _ | reservedOpc03 _ | reservedOpc04To07 _ _ | reservedOpc08To0F _ _ | reservedOpc10To1F _ _
  | reservedOpc20To3F _ _ | reservedOpc40To7F _ _ | reservedOpc80ToFF _ _ => cases h
  | accept => exact execAccept_traceOrdered hs h
  | chset0 => exact microStep_traceOrdered hs h logs_chset0 fun _ => rfl
  | chset1 => exact microStep_traceOrdered hs h logs_chset1 fun _ => rfl
  | dtpass => exact microStep_traceOrdered hs h logs_dtpass fun _ => rfl
  | select => exact microStep_traceOrdered hs h logs_select fun _ => rfl
  | startRise | dataRiseFirst | dataRiseNext | stopRise => exact microStep_traceOrdered hs h logs_rise fun _ => rfl
  | startFall | dataFall | stopFall => exact microStep_traceOrdered hs h logs_fall fun _ => rfl
  | startSample => exact microStep_traceOrdered hs h logs_startSample fun _ => rfl
  | dataSample => exact microStep_traceOrdered hs h logs_dataSample fun _ => rfl
  | stopSample => exact microStep_traceOrdered hs h logs_stopSample fun _ => rfl
  | deselect => exact microStep_traceOrdered hs h logs_deselect fun _ => rfl
  | stamp => exact microStep_traceOrdered hs h logs_stamp fun _ => rfl

/-! ## The moves -/

/-- The reset event raises cmd_ready, or leaves it high (70_reset_and_hazards.md R181). -/
theorem State.TraceOrdered.resetEvent {s : State} (h : s.TraceOrdered) : s.resetEvent.TraceOrdered := by
  rw [traceOrdered_iff] at h ⊢
  exact h.event (e := .reset) s.resetEvent_trace le_rfl

theorem fetchMove_traceOrdered {m : Move} {s u : State} (hs : s.TraceOrdered)
    (h : (fetchMove m s).state? = some u) : u.TraceOrdered := by
  cases m with
  | pass _ | passUntil _ => cases h; exact hs.later rfl rfl (by simp)
  | await => cases h; exact hs.later s.await_seq s.await_trace (time_le_await s)
  | reset => cases h; exact hs.resetEvent
  | call w => cases h; exact hs.later rfl rfl le_rfl
  | present w =>
    simp only [fetchMove] at h
    split at h <;> cases h
    exact hs.later rfl rfl le_rfl
  | go =>
    simp only [fetchMove, fetchMicroStep] at h
    split at h <;> cases h
    exact hs

/-- Settles O5: a step is a move and at most one instruction, and both keep the trace ordered. -/
theorem stepKeepsTheTraceOrdered : Obligations.StepKeepsTheTraceOrdered := by
  intro s t hs h
  have hmove : s.takeMove.TraceOrdered := hs.later rfl rfl le_rfl
  obtain ⟨i, u, hf, ht⟩ | hf := step_eq_next h
  · exact exec_traceOrdered (fetchMove_traceOrdered hmove (congrArg Fetched.state? hf)) ht
  · exact fetchMove_traceOrdered hmove (congrArg Fetched.state? hf)

end Sys2Proof.Machine
end

section
/-! PROOFS. The encoding (30_encoding.md R70 to R73, R78): command words row by row, micro-steps by the state they leave, and
what reserved words come to. -/

namespace Sys2Proof.Machine

/-! ## The instruction encodes and decodes back -/

/-- Settles O13: a command word by the row of its operation code, a micro-step by its own line of the state table. -/
theorem decodeInvertsEncode : Obligations.DecodeInvertsEncode := by
  intro i
  cases i with
  | init opd => exact Laws.RoundTrip.init opd
  | conv opd => exact Laws.RoundTrip.conv opd
  | reservedOpc00 opd => exact Laws.RoundTrip.reservedOpc00 opd
  | reservedOpc03 opd => exact Laws.RoundTrip.reservedOpc03 opd
  | reservedOpc04To07 opc opd => exact Laws.RoundTrip.reservedOpc04To07 opc opd
  | reservedOpc08To0F opc opd => exact Laws.RoundTrip.reservedOpc08To0F opc opd
  | reservedOpc10To1F opc opd => exact Laws.RoundTrip.reservedOpc10To1F opc opd
  | reservedOpc20To3F opc opd => exact Laws.RoundTrip.reservedOpc20To3F opc opd
  | reservedOpc40To7F opc opd => exact Laws.RoundTrip.reservedOpc40To7F opc opd
  | reservedOpc80ToFF opc opd => exact Laws.RoundTrip.reservedOpc80ToFF opc opd
  | accept | chset0 | chset1 | dtpass | select | startRise | startFall | startSample | dataRiseFirst | dataFall
  | dataSample | dataRiseNext | stopRise | stopFall | stopSample | deselect | stamp => exact fun _ => rfl

/-! ## The word decodes and encodes back -/

/-- A word decodes to the row of its operation code (R73). -/
theorem decodeCommand_eq_rowInstr (w : CmdWord) :
    decodeCommand w = rowInstr (opcOf w) (opdOf w) (rowOf (opcOf w)) := by
  rw [← decodeCommand_cmd16, cmd16_fields]

/-- The operation codes of a row, as opcode_table.json gives them. -/
def rowTakes (opc : Byte) : Fin 10 → Bool
  | 0 => opc = 0x01
  | 1 => opc = 0x02
  | 2 => opc = 0x00
  | 3 => opc = 0x03
  | 4 => opcIn 0xFC 0x04 opc
  | 5 => opcIn 0xF8 0x08 opc
  | 6 => opcIn 0xF0 0x10 opc
  | 7 => opcIn 0xE0 0x20 opc
  | 8 => opcIn 0xC0 0x40 opc
  | 9 => opcIn 0x80 0x80 opc

/-- The ten rows leave no operation code out: the last row takes what remains (R73). -/
theorem rowTakes_rowOf : ∀ opc : Byte, rowTakes opc (rowOf opc) = true := by decide

/-- The instruction of a row is well-formed, and encodes to the word it was made from, if the row takes the code. -/
theorem rowInstr_encodes {opc : Byte} (opd : Byte) {r : Fin 10} (h : rowTakes opc r = true) :
    encode (rowInstr opc opd r) = .word (cmd16 opc opd) ∧ (rowInstr opc opd r).wellFormed = true := by
  match r with
  | 0 | 1 | 2 | 3 => obtain rfl := of_decide_eq_true h; exact ⟨rfl, rfl⟩
  | 4 | 5 | 6 | 7 | 8 | 9 => exact ⟨rfl, h⟩

/-- Settles O14: the row that a word decodes to takes its operation code. -/
theorem everyCommandWordReencodes : Obligations.EveryCommandWordReencodes := by
  intro w
  have h := rowInstr_encodes (opdOf w) (rowTakes_rowOf (opcOf w))
  rwa [cmd16_fields, ← decodeCommand_eq_rowInstr] at h

/-! ## The reserved words -/

/-- The rows after INIT and CONV are the reserved ones. -/
theorem isReserved_rowInstr (opc opd : Byte) (r : Fin 10) : (rowInstr opc opd r).isReserved = decide (2 ≤ r) := by
  match r with
  | 0 | 1 | 2 | 3 | 4 | 5 | 6 | 7 | 8 | 9 => rfl

theorem two_le_rowOf_iff : ∀ opc : Byte, 2 ≤ rowOf opc ↔ opc = 0 ∨ 3 ≤ opc.toNat := by decide

/-- Settles O15: the reserved rows are the last eight, and their codes are all but 0x01 and 0x02. -/
theorem reservedWordsAreTheOtherOpcodes : Obligations.ReservedWordsAreTheOtherOpcodes := by
  intro w
  rw [decodeCommand_eq_rowInstr, isReserved_rowInstr, decide_eq_true_iff, two_le_rowOf_iff]

/-- Settles O48: each reserved row is refused with the operation code that its word holds. -/
theorem reservedRowsAreRefused : Obligations.ReservedRowsAreRefused := by
  intro i s w hi he
  cases i with
  | reservedOpc00 _ | reservedOpc03 _ | reservedOpc04To07 _ _ | reservedOpc08To0F _ _ | reservedOpc10To1F _ _
  | reservedOpc20To3F _ _ | reservedOpc40To7F _ _ | reservedOpc80ToFF _ _ =>
    cases he
    rw [opcOf_cmd16]
    rfl
  | _ => cases hi

/-! ## The micro-step that a state selects -/

/-- The state code 10110 belongs to two micro-steps (R78, R119, R122). -/
theorem decodeState_dataPulse2 (k : BitVec 4) : decodeState SeqState.dataPulse2.code k =
    if k.toNat < 8 then .ok .dataRiseNext else if k.toNat = 8 then .ok .stopRise else .error (.unusedBitCount k) := rfl

/-- Which of the two it selects says what BITCNT is. -/
theorem bitcnt_of_decodeState {k : BitVec 4} {i : Instr} (h : decodeState SeqState.dataPulse2.code k = .ok i) :
    (i = .dataRiseNext → k.toNat < 8) ∧ (i = .stopRise → k.toNat = 8) := by
  rw [decodeState_dataPulse2] at h
  split_ifs at h with hlt heq
  · cases h; exact ⟨fun _ => hlt, nofun⟩
  · cases h; exact ⟨nofun, fun _ => heq⟩

/-- A micro-step is selected by the state it leaves, with BITCNT on its side of 8 where that decides (R78). -/
theorem decodeState_of_fromState {q : SeqState} {k : BitVec 4} {i : Instr} (hq : fromState i = some q)
    (hrise : i = .dataRiseNext → k.toNat < 8) (hstop : i = .stopRise → k.toNat = 8) :
    decodeState q.code k = .ok i := by
  cases i with
  | dataRiseNext => cases hq; rw [decodeState_dataPulse2, if_pos (hrise rfl)]
  | stopRise => cases hq; rw [decodeState_dataPulse2, if_neg (hstop rfl).not_lt, if_pos (hstop rfl)]
  | _ => cases hq <;> rfl

/-- Settles O16: the micro-step selected leaves the state, and of the two that leave 10110 the BITCNT admits one. -/
theorem eachStateSelectsOneMicroStep : Obligations.EachStateSelectsOneMicroStep := by
  intro q k i hk
  constructor
  · intro hd
    obtain ⟨j, hj, hq⟩ := decodeState_of_fits hk
    cases hj.symm.trans hd
    refine ⟨hq, ?_, ?_⟩
    · rintro rfl
      cases hq
      exact (bitcnt_of_decodeState hd).1 rfl
    · rintro rfl
      cases hq
      exact (bitcnt_of_decodeState hd).2 rfl
  · rintro ⟨hq, hrise, hstop⟩
    exact decodeState_of_fromState hq hrise hstop

/-- Settles O11: taking the move off the agenda is what the engine's own move does before the micro-step runs. -/
theorem stepRunsTheSelectedMicroStep : Obligations.StepRunsTheSelectedMicroStep := by
  intro s i rest ha hd
  rw [step_go (by simp [State.nextMove, ha]) hd, State.takeMove, ha, List.tail_cons]

/-- Settles O17: three words and two state codes, decoded. -/
theorem specWordsDecode : Obligations.SpecWordsDecode := ⟨rfl, rfl, rfl, rfl, rfl⟩

end Sys2Proof.Machine
end

section
/-! PROOFS. The operand of CONV (30_encoding.md R72, 40_host_commands.md R100): the lines of CONV do the same whatever the
trace holds before them, so all that is left of the operand is the channel, and the word in the trace. -/

namespace Sys2Proof.Machine

/-! ## The past does not matter -/

/-- The state with earlier entries in front of its trace. -/
def State.after (past : List (Nat × Event)) (s : State) : State := { s with trace := past ++ s.trace }

/-- An operation does the same whatever has happened before. -/
def IgnoresPast (f : State → Result) : Prop :=
  ∀ past s, f (s.after past) = (f s).andThen fun t => .next (t.after past)

section
variable (past : List (Nat × Event)) (s : State)

@[simp] theorem State.after_cfg : (s.after past).cfg = s.cfg := rfl
@[simp] theorem State.after_modeDin : (s.after past).modeDin = s.modeDin := rfl
@[simp] theorem State.after_dinAt (k : Nat) : (s.after past).dinAt k = s.dinAt k := rfl
@[simp] theorem State.after_takeDin : (s.after past).takeDin = s.takeDin.after past := rfl
@[simp] theorem State.after_awaitHold : (s.after past).awaitHold = s.awaitHold.after past := rfl
@[simp] theorem State.after_awaitDeadTime : (s.after past).awaitDeadTime = s.awaitDeadTime.after past := rfl

@[simp] theorem State.after_mode (p : Pin) : (s.after past).mode p = s.mode p := by cases p <;> rfl

@[simp] theorem State.after_setLatch (p : Pin) (v : Bit) :
    (s.after past).setLatch p v = (s.setLatch p v).after past := by cases p <;> rfl

@[simp] theorem State.after_record (e : Event) : (s.after past).record e = (s.record e).after past := by
  simp [State.after, State.record]

end

/-- An operation that always answers a next state, which earlier entries are only put in front of. -/
theorem ignoresPast_next {k : State → State} (hk : ∀ past s, k (s.after past) = (k s).after past) :
    IgnoresPast fun s => .next (k s) :=
  fun past s => congrArg Host.Outcome.next (hk past s)

theorem IgnoresPast.andThen {f k : State → Result} (hf : IgnoresPast f) (hk : IgnoresPast k) :
    IgnoresPast fun s => (f s).andThen k := by
  intro past s
  simp only [hf past s, andThen_assoc, andThen_next, hk past]

/-- Operations one after the other ignore the past if each of them does. -/
theorem ignoresPast_runLines {ls : List (State → Result)} (h : ∀ l ∈ ls, IgnoresPast l) :
    IgnoresPast (runLines ls) := by
  induction ls with
  | nil => exact ignoresPast_next fun _ _ => rfl
  | cons l ls ih =>
    obtain ⟨hl, hls⟩ := List.forall_mem_cons.1 h
    exact hl.andThen (ih hls)

theorem IgnoresPast.afterHold {f : State → Result} (hf : IgnoresPast f) : IgnoresPast (afterHold f) :=
  fun past s => hf past s.awaitHold

theorem IgnoresPast.afterDeadTime {f : State → Result} (hf : IgnoresPast f) : IgnoresPast (afterDeadTime f) :=
  fun past s => hf past s.awaitDeadTime

/-! ## The lines of CONV -/

theorem ignoresPast_pinWrite (p : Pin) (v : Bit) : IgnoresPast (pinWrite p v) := by
  intro past s
  simp only [pinWrite, State.after_cfg, State.after_mode, State.after_setLatch, State.after_record]
  split <;> rfl

/-- One pin write, of a level the past does not decide, and then `k`. -/
theorem ignoresPast_write {p : Pin} {v : State → Bit} {k : State → State} (hv : ∀ past s, v (s.after past) = v s)
    (hk : ∀ past s, k (s.after past) = (k s).after past) :
    IgnoresPast fun s => (pinWrite p (v s) s).andThen fun t => .next (k t) := by
  intro past s
  simp only [hv past s]
  exact (ignoresPast_pinWrite p (v s)).andThen (ignoresPast_next hk) past s

/-- One DIN read, whose level is the environment's, and then `k` of the level. -/
theorem ignoresPast_read {k : Bit → State → State} (hk : ∀ b past s, k b (s.after past) = (k b s).after past) :
    IgnoresPast (pinRead fun b t => .next (k b t)) := by
  intro past s
  simp only [pinRead, State.after_modeDin, State.after_dinAt, State.after_takeDin, State.after_record, hk]
  split <;> rfl

theorem ignoresPast_chset0 : IgnoresPast chset0Effect := ignoresPast_write (fun _ _ => rfl) fun _ _ => rfl

theorem ignoresPast_chset1 : IgnoresPast chset1Effect := ignoresPast_write (fun _ _ => rfl) fun _ _ => rfl

theorem ignoresPast_dtpass : IgnoresPast dtpassEffect :=
  ignoresPast_next fun past s => congrArg (State.endEvent 0) (State.after_record past s (.now s.now))

theorem ignoresPast_select : IgnoresPast selectEffect :=
  ignoresPast_write (k := fun t => ({ t with shreg := 0, bitcnt := 0 } : State).endEvent t.cfg.tCss) (fun _ _ => rfl)
    fun _ _ => rfl

theorem ignoresPast_rise : IgnoresPast riseEffect := ignoresPast_write (fun _ _ => rfl) fun _ _ => rfl

theorem ignoresPast_fall : IgnoresPast fallEffect := ignoresPast_write (fun _ _ => rfl) fun _ _ => rfl

theorem ignoresPast_startSample : IgnoresPast startSampleEffect := ignoresPast_read fun _ _ _ => rfl

theorem ignoresPast_dataSample : IgnoresPast dataSampleEffect := by
  intro past s
  by_cases hk : s.bitcnt.toNat < Config.nData
  · have hk' : (s.after past).bitcnt.toNat < Config.nData := hk
    rw [dataSampleEffect, if_pos hk', dataSampleEffect, if_pos hk]
    refine ignoresPast_read ?_ past s
    exact fun _ _ _ => rfl
  · have hk' : ¬(s.after past).bitcnt.toNat < Config.nData := hk
    rw [dataSampleEffect, if_neg hk', dataSampleEffect, if_neg hk]
    rfl

theorem ignoresPast_stopSample : IgnoresPast stopSampleEffect := ignoresPast_read fun _ _ _ => rfl

theorem ignoresPast_deselect : IgnoresPast deselectEffect := ignoresPast_write (fun _ _ => rfl) fun _ _ => rfl

theorem ignoresPast_stamp : IgnoresPast stampEffect :=
  ignoresPast_next fun past s => congrArg
    (fun t : State => ({ t with tDesel := s.now, result := s.shreg } : State).endEvent 0)
    (State.after_record past s (.stamp s.now s.shreg))

/-- One clock pulse, whatever its sample does with the level it reads (R94 lines 4 to 6). -/
theorem ignoresPast_pulse {sample : State → Result} (hs : IgnoresPast sample) :
    ∀ l ∈ [afterHold riseEffect, afterHold fallEffect, afterHold sample], IgnoresPast l := by
  simp [ignoresPast_rise.afterHold, ignoresPast_fall.afterHold, hs.afterHold]

theorem ignoresPast_convLines (c : Params) : ∀ l ∈ convLines c, IgnoresPast l := by
  simp only [convLines, List.forall_mem_append]
  refine ⟨⟨⟨⟨⟨?channel, ?select⟩, ?start⟩, ?data⟩, ?stop⟩, ?completion⟩
  case channel => split <;> simp [ignoresPast_chset0.afterHold, ignoresPast_chset1.afterHold]
  case select => simp [ignoresPast_dtpass.afterDeadTime, ignoresPast_select.afterHold]
  case start => exact ignoresPast_pulse ignoresPast_startSample
  case data =>
    intro l hl
    obtain ⟨pulse, hpulse, hmem⟩ := List.mem_flatten.1 hl
    rw [List.eq_of_mem_replicate hpulse] at hmem
    exact ignoresPast_pulse ignoresPast_dataSample l hmem
  case stop => exact ignoresPast_pulse ignoresPast_stopSample
  case completion => simp [ignoresPast_deselect.afterHold, ignoresPast_stamp.afterHold]

/-! ## The operand -/

/-- The state that ACCEPT leaves but for the trace, which is empty here. -/
def State.accepted (opd : Byte) (s : State) : State := { s with
  chsel := if s.cfg.hasChan then chanOf s.cfg opd else s.chsel
  cmd := none
  tReady := s.time
  trace := [] }

/-- What CONV does in (IDLE, 0) with Ready and no hold pending: its lines run on, behind the ACCEPT entry (R94). -/
theorem execConv_accepts (opd : Byte) {s : State} (hq : s.seq = .idle0) (hr : s.ready = true)
    (ht : s.tReady ≤ s.time) : execConv opd s =
      (runLines (convLines s.cfg) (s.accepted opd)).andThen fun t =>
        .next (t.after (s.trace ++ [(s.time, .accept (cmd16 0x02 opd))])) := by
  have hb : s.busy = false := by simp [State.busy, hq]
  have ha : acceptEffect opd s =
      .next ((s.accepted opd).after (s.trace ++ [(s.time, .accept (cmd16 0x02 opd))])) := by
    simp [acceptEffect_eq, State.accepted, State.after]
  rw [← ignoresPast_runLines (ignoresPast_convLines s.cfg)]
  simp [execConv, hb, hr, ht, ha]

/-- With a hold pending CONV only lets time pass, whatever its operand (R110). -/
theorem execConv_holds (opd : Byte) {s : State} (hq : s.seq = .idle0) (hr : s.ready = true)
    (ht : s.time < s.tReady) : execConv opd s = .next s.idleAway := by
  simp [execConv, State.busy, hq, hr, ht]

/-- Two operands with the same channel are accepted alike (R72, R100). -/
theorem accepted_eq_of_sameChannel {s : State} {opd opd' : Byte}
    (h : chanBits opd = chanBits opd' ∨ s.cfg.fixedChannel ≠ none ∨ s.cfg.hasChan = false) :
    s.accepted opd = s.accepted opd' := by
  obtain hbits | hfixed | hnone := h
  · simp only [State.accepted, chanOf, hbits]
  · obtain ⟨c, hc⟩ := Option.ne_none_iff_exists'.1 hfixed
    simp only [State.accepted, chanOf, hc, Option.getD_some]
  · simp only [State.accepted, hnone, Bool.false_eq_true, if_false]

/-- Settles O25: the lines of CONV start from the same state, and go on behind a trace that differs in the word alone. -/
theorem convIgnoresTheOtherOperandBits : Obligations.ConvIgnoresTheOtherOperandBits := by
  intro s opd opd' t hch h
  change execConv opd s = .next t at h
  obtain ⟨hq, hr, -⟩ := execConv_eq_next opd h
  obtain ht | ht := Nat.lt_or_ge s.time s.tReady
  · rw [execConv_holds opd hq hr ht] at h
    exact .inl ⟨ht, (execConv_holds opd' hq hr ht).trans h⟩
  · rw [execConv_accepts opd hq hr ht] at h
    obtain ⟨u, hu, hn⟩ := andThen_eq_next h
    cases hn
    refine .inr ⟨u.trace, by simp [State.after], ?_⟩
    show execConv opd' s = _
    rw [execConv_accepts opd' hq hr ht, ← accepted_eq_of_sameChannel hch, hu]
    simp [State.after]

end Sys2Proof.Machine
end

section
/-! PROOFS. The host's moves (40_host_commands.md R91 to R93, R98, R99): the instruction a called or presented word comes
to, INIT, and the commands that have no step. -/

namespace Sys2Proof.Machine

/-! ## What a called and a presented word come to -/

/-- Settles O9: the move is taken off the agenda, and the decoded word is run. -/
theorem stepRunsTheCalledCommand : Obligations.StepRunsTheCalledCommand := by
  intro s w rest ha
  simp [step, fetch, fetchMove, State.nextMove, State.takeMove, ha]

/-- A word presented to an idle engine is run in the form that takes it event by event (R91, R111). -/
theorem step_present {s : State} {w : CmdWord} {rest : List Move} (ha : s.agenda = .present w :: rest)
    (hb : s.busy = false) : step s =
      exec (eventForm (decodeCommand w)) { s with agenda := rest, moveCount := s.moveCount + 1, cmd := some w } := by
  have hb' : s.takeMove.busy = false := hb
  simp only [step, fetch, fetchMove, State.nextMove, ha, List.headD_cons, hb', Bool.false_eq_true, if_false]
  simp [State.takeMove, ha]

/-- Only CONV has an event form of its own. -/
theorem eventForm_of_ne_conv {i : Instr} (h : ∀ opd, i ≠ .conv opd) : eventForm i = i := by
  cases i with
  | conv opd => exact absurd rfl (h opd)
  | _ => rfl

/-- Settles O10: the event form of a CONV is ACCEPT, of any other word its own instruction. -/
theorem stepRunsThePresentedCommand : Obligations.StepRunsThePresentedCommand := by
  intro s w rest ha hb
  refine ⟨fun opd hw => ?conv, fun hw => ?other⟩
  case conv => rw [step_present ha hb, hw, eventForm]
  case other => rw [step_present ha hb, eventForm_of_ne_conv hw]

/-! ## INIT -/

/-- Settles O18: INIT in (IDLE, 0), with the whole state it leaves. -/
theorem initConfiguresThePinsAndIdlesTheLines : Obligations.InitConfiguresThePinsAndIdlesTheLines :=
  fun _ opd hq => execInit_idle opd hq

/-- Settles O19: the pins and the port are already what the second INIT makes them, and its events are the first one's. -/
theorem initTwiceIsInitOnce : Obligations.InitTwiceIsInitOnce := by
  intro s opd opd' t h
  have hq := idle_of_execInit opd h
  have hfirst := (execInit_idle opd hq).symm.trans h
  have hq' : t.seq = .idle0 := by cases hfirst; exact hq
  refine (execInit_idle opd' hq').trans ?_
  cases hfirst
  cases hc : s.cfg.hasChan <;> simp

/-! ## What is refused -/

/-- A word with another operation code than INIT's and CONV's belongs to a reserved row (R73). -/
theorem isReserved_decodeCommand {w : CmdWord} (hinit : opcOf w ≠ 0x01) (hconv : opcOf w ≠ 0x02) :
    (decodeCommand w).isReserved = true := by
  have hopc : ∀ opc : Byte, opc ≠ 0x01 → opc ≠ 0x02 → opc = 0 ∨ 3 ≤ opc.toNat := by decide
  exact (reservedWordsAreTheOtherOpcodes w).2 (hopc _ hinit hconv)

/-- Settles O49: the word belongs to a reserved row, presented or called, and every such row is refused. -/
theorem presentingAReservedWordIsRefused : Obligations.PresentingAReservedWordIsRefused := by
  intro s w rest hinit hconv hb ha
  have hres := isReserved_decodeCommand hinit hconv
  have hrefused (t : State) := reservedRowsAreRefused (decodeCommand w) t w hres (everyCommandWordReencodes w).1
  obtain ha | ha := ha
  · have hne : ∀ opd, decodeCommand w ≠ .conv opd := by
      intro opd hw
      rw [hw] at hres
      cases hres
    rw [step_present ha hb, eventForm_of_ne_conv hne, hrefused]
  · rw [stepRunsTheCalledCommand s w rest ha, hrefused]

/-- Settles O50: INIT, CONV and the presenting of a word ask first whether the engine is BUSY. -/
theorem commandsWhileBusyAreRefused : Obligations.CommandsWhileBusyAreRefused := by
  intro s opd w rest hb
  refine ⟨if_pos hb, if_pos hb, fun ha => ?_⟩
  have hb' : s.takeMove.busy = true := hb
  simp [step, fetch, fetchMove, State.nextMove, ha, hb']

/-- Where a CONV word stands at the port, ACCEPT finds its operand. -/
theorem convOperand_of_conv {s : State} {opd : Byte} (h : s.cmd = some (cmd16 0x02 opd)) :
    convOperand s = some opd := by
  simp [convOperand, h]

/-- Settles O51: both forms of CONV ask for Ready in (IDLE, 0). -/
theorem convBeforeInitIsRefused : Obligations.ConvBeforeInitIsRefused := by
  intro s opd hq hr
  constructor
  · have hb : s.busy = false := by simp [State.busy, hq]
    show execConv opd s = _
    simp [execConv, hb, hr]
  · show execAccept _ = _
    rw [execAccept, convOperand_of_conv rfl]
    exact if_pos ⟨hq, hr⟩

end Sys2Proof.Machine
end

section
/-! PROOFS. CONV as one transition (40_host_commands.md R94 to R97, R101): when its events happen, the trace they leave, and
the byte it returns. -/

namespace Sys2Proof.Machine

/-! ## Shifting draws in (42_datapath_primitives.md R140, R146) -/

theorem getLsbD_shiftIn (r : Byte) (b : Bit) {i : Nat} (hi : i < 8) :
    (shiftIn r b).getLsbD i = if i = 0 then b.getLsbD 0 else r.getLsbD (i - 1) := by
  obtain _ | i := i
  · simp [shiftIn]
  · have hr : r.getLsbD i = r[i] := BitVec.getLsbD_eq_getElem (by omega)
    simp [shiftIn, hi, hr]

theorem toNat_shiftIn (r : Byte) (b : Bit) : (shiftIn r b).toNat = (2 * r.toNat + b.toNat) % 256 := by
  revert r b
  decide

/-- After `k` shift-ins the last draw is in bit 0, and what was in the register has moved up. -/
theorem getLsbD_foldl_shiftIn (d : Nat → Bit) (r : Byte) (k : Nat) {i : Nat} (hi : i < 8) :
    (((List.range k).map d).foldl shiftIn r).getLsbD i =
      if i < k then (d (k - 1 - i)).getLsbD 0 else r.getLsbD (i - k) := by
  induction k generalizing i with
  | zero => simp
  | succ k ih =>
    rw [List.range_succ, List.map_append, List.foldl_append, List.map_singleton, List.foldl_cons, List.foldl_nil,
      getLsbD_shiftIn _ _ hi]
    obtain _ | i := i
    · simp
    · rw [if_neg (Nat.succ_ne_zero i), Nat.add_sub_cancel, ih (by omega)]
      simp only [Nat.add_lt_add_iff_right, Nat.add_sub_add_right, Nat.add_sub_cancel, Nat.sub_sub, Nat.add_comm]

/-- Eight shift-ins leave the draws alone, whatever was in the register. -/
theorem toNat_foldl_shiftIn_eight (d : Nat → Bit) (r : Byte) :
    (((List.range 8).map d).foldl shiftIn r).toNat = byteOfDraws d := by
  have hd (k : Nat) : (d k).toNat < 2 := (d k).isLt
  have h0 := hd 0; have h1 := hd 1; have h2 := hd 2; have h3 := hd 3
  have h4 := hd 4; have h5 := hd 5; have h6 := hd 6; have h7 := hd 7
  have hr := r.isLt
  simp only [List.range_succ, List.range_zero, List.nil_append, List.cons_append, List.map_cons, List.map_nil,
    List.foldl_cons, List.foldl_nil, toNat_shiftIn, byteOfDraws]
  omega

/-! ## When the events of a conversion happen, and what they leave in the trace -/

/-- The times of the events of one conversion after its acceptance (R97): the two channel writes, the passing dead-time
test, CS low, the rise, the fall and the read of each clock pulse, CS high, and the stamp. -/
structure ConvTimes where
  chset0 : Nat
  chset1 : Nat
  dtpass : Nat
  select : Nat
  rise : Nat → Nat
  fall : Nat → Nat
  read : Nat → Nat
  deselect : Nat
  stamp : Nat

/-- The entries of the `j`-th clock pulse, its read finding `d j`. -/
def pulseEntries (r f m : Nat → Nat) (d : Nat → Bit) (j : Nat) : List (Nat × Event) :=
  [(r j, .write .clk high), (f j, .write .clk low), (m j, .read (d j))]

/-- The entries of a conversion after its acceptance (R96), the DIN reads finding `d` and the stamp handing over `rsp`. -/
def ConvTimes.entries (T : ConvTimes) (c : Params) (chan : BitVec 2) (d : Nat → Bit) (rsp : Byte) : List (Nat × Event) :=
  (if c.hasChan then [(T.chset0, .write .c0 (chanLevel0 chan)), (T.chset1, .write .c1 (chanLevel1 chan))] else []) ++
  [(T.dtpass, .now (nowAt c T.dtpass)), (T.select, .write .cs low)] ++
  (List.range 10).flatMap (pulseEntries T.rise T.fall T.read d) ++
  [(T.deselect, .write .cs high), (T.stamp, .stamp (nowAt c T.stamp) rsp)]

/-- The inequalities between the times of a conversion accepted in `s` (R97, R102). -/
structure ConvTimes.Allowed (T : ConvTimes) (s : State) : Prop where
  channel : s.cfg.hasChan = true → s.time ≤ T.chset0 ∧ T.chset0 ≤ T.chset1 ∧ T.chset1 + s.cfg.tChSetup ≤ T.dtpass
  noChannel : s.cfg.hasChan = false → s.time ≤ T.dtpass
  deadTime : s.cfg.tCsh ≤ (elapsed s.cfg.wT (nowAt s.cfg T.dtpass) s.tDesel).toNat
  select : T.dtpass ≤ T.select
  setup : T.select + s.cfg.tCss ≤ T.rise 0
  pulse : ∀ j, j < 10 → T.rise j + s.cfg.tCkh ≤ T.fall j ∧ T.fall j ≤ T.read j
  between : ∀ j, j < 9 → T.read j + s.cfg.tCkl ≤ T.rise (j + 1)
  deselect : T.read 9 ≤ T.deselect
  stamp : T.deselect ≤ T.stamp

/-- The `n`-th rise is at least `n` pulses after the first. -/
theorem ConvTimes.Allowed.rise_le {T : ConvTimes} {s : State} (h : T.Allowed s) (n : Nat) (hn : n < 10) :
    T.rise 0 + n * s.cfg.tCkh + n * s.cfg.tCkl ≤ T.rise n := by
  induction n with
  | zero => simp
  | succ n ih =>
    have hrise := ih (by omega)
    obtain ⟨hhigh, hfall⟩ := h.pulse n (by omega)
    have hlow := h.between n (by omega)
    rw [Nat.succ_mul, Nat.succ_mul]
    omega

/-- How long CS is low at the least (R193). -/
theorem ConvTimes.Allowed.select_le_deselect {T : ConvTimes} {s : State} (h : T.Allowed s) :
    T.select + s.cfg.tCss + 10 * s.cfg.tCkh + 9 * s.cfg.tCkl ≤ T.deselect := by
  have hlast := h.rise_le 9 (by omega)
  obtain ⟨hhigh, hfall⟩ := h.pulse 9 (by omega)
  have hsetup := h.setup
  have hdeselect := h.deselect
  omega

/-! ## The channel pins -/

/-- What line 1 of CONV leaves: the writes of C0 and C1 at `t0` and `t1`, or nothing without channel pins. -/
structure ChannelLine (s t : State) (t0 t1 : Nat) : Prop where
  kept : Kept s t
  channel : s.cfg.hasChan = true → s.time ≤ t0 ∧ t0 ≤ t1 ∧ t.tReady = t1 + s.cfg.tChSetup ∧
    t.c0 = chanLevel0 s.chsel ∧ t.c1 = chanLevel1 s.chsel
  noChannel : s.cfg.hasChan = false → t = s
  trace : t.trace = s.trace ++
    if s.cfg.hasChan then [(t0, .write .c0 (chanLevel0 s.chsel)), (t1, .write .c1 (chanLevel1 s.chsel))] else []
  dinAt : ∀ k, t.dinAt k = s.dinAt k
  tDesel : t.tDesel = s.tDesel

theorem channel_line {s : State} (hr : s.ready = true) : ∃ t t0 t1,
    (∀ ls, runLines ((if s.cfg.hasChan then [afterHold chset0Effect, afterHold chset1Effect] else []) ++ ls) s =
      runLines ls t) ∧ ChannelLine s t t0 t1 := by
  cases hc : s.cfg.hasChan with
  | false =>
    refine ⟨s, 0, 0, fun ls => rfl, ?_⟩
    exact { kept := Kept.refl s, channel := by simp [hc], noChannel := fun _ => rfl, trace := by simp [hc],
            dinAt := fun _ => rfl, tDesel := rfl }
  | true =>
    obtain ⟨a, ha, la, -, -, tDeselA, -, c0A, -⟩ := chset0_line hr hc
    obtain ⟨b, hb, lb, -, -, tDeselB, -, c1B, c0B, -⟩ := chset1_line (la.kept.ready hr) (by rw [la.kept.cfg, hc])
    refine ⟨b, a.time, b.time, fun ls => (runLines_of_next ha).trans (runLines_of_next hb), ?_⟩
    exact {
      kept := la.kept.trans lb.kept
      channel := fun _ => ⟨la.time_le, lb.time_le, by rw [lb.tReady, la.kept.cfg], c0B.trans c0A, by
        rw [c1B, la.kept.chsel]⟩
      noChannel := by simp [hc]
      trace := by rw [lb.trace, la.trace, la.kept.chsel]; simp [hc]
      dinAt := fun k => (lb.dinAt k).trans (la.dinAt k)
      tDesel := tDeselB.trans tDeselA }

/-! ## The ten clock pulses -/

/-- A sequence of ten: the first, eight in the middle, the last. -/
def ofTen (first : Nat) (mid : Nat → Nat) (last : Nat) (j : Nat) : Nat :=
  if j = 0 then first else if j = 9 then last else mid (j - 1)

theorem ofTen_mid (first last : Nat) (mid : Nat → Nat) {j : Nat} (hj : j < 8) : ofTen first mid last (j + 1) = mid j := by
  rw [ofTen, if_neg (by omega), if_neg (by omega), Nat.add_sub_cancel]

/-- The entries of ten pulses, the first and the last apart. -/
theorem flatMap_pulseEntries (r0 f0 m0 r9 f9 m9 : Nat) (r f m : Nat → Nat) (d : Nat → Bit) :
    (List.range 10).flatMap (pulseEntries (ofTen r0 r r9) (ofTen f0 f f9) (ofTen m0 m m9) d) =
      [(r0, .write .clk high), (f0, .write .clk low), (m0, .read (d 0))] ++
      ((List.range 8).flatMap (pulseEntries r f m fun j => d (j + 1)) ++
        [(r9, .write .clk high), (f9, .write .clk low), (m9, .read (d 9))]) := rfl

/-- What lines 4 to 6 of CONV leave: ten pulses, the first and the last read discarded. -/
structure TenPulses (s t : State) (r f m : Nat → Nat) : Prop where
  kept : Kept s t
  first : s.tReady ≤ r 0
  pulse : ∀ j, j < 10 → r j + s.cfg.tCkh ≤ f j ∧ f j ≤ m j
  between : ∀ j, j < 9 → m j + s.cfg.tCkl ≤ r (j + 1)
  last : t.time = m 9
  trace : t.trace = s.trace ++ (List.range 10).flatMap (pulseEntries r f m s.dinAt)
  shreg : t.shreg = ((List.range 8).map fun k => s.dinAt (k + 1)).foldl shiftIn s.shreg
  c0 : t.c0 = s.c0
  c1 : t.c1 = s.c1

/-- The lines of the ten pulses (R94 lines 4 to 6). -/
def pulseLines : List (State → Result) :=
  [afterHold riseEffect, afterHold fallEffect, afterHold startSampleEffect] ++
  (List.replicate Config.nData [afterHold riseEffect, afterHold fallEffect, afterHold dataSampleEffect]).flatten ++
  [afterHold riseEffect, afterHold fallEffect, afterHold stopSampleEffect]

theorem convLines_eq (c : Params) : convLines c =
    (if c.hasChan then [afterHold chset0Effect, afterHold chset1Effect] else []) ++
      (afterDeadTime dtpassEffect :: afterHold selectEffect ::
        (pulseLines ++ [afterHold deselectEffect, afterHold stampEffect])) := by
  simp only [convLines, pulseLines, List.append_assoc, List.cons_append, List.nil_append]

theorem ten_pulses {s : State} (hr : s.ready = true) (hk : s.bitcnt = 0) : ∃ t r f m,
    (∀ ls, runLines (pulseLines ++ ls) s = runLines ls t) ∧ TenPulses s t r f m := by
  obtain ⟨a, r0, f0, m0, runA, pulseA, shregA, bitcntA⟩ := start_pulse hr
  obtain ⟨b, r, f, m, runB, pulsesB⟩ :=
    data_pulses Config.nData (pulseA.kept.ready hr) (by simp [bitcntA, hk])
  have keptB := pulseA.kept.trans pulsesB.kept
  obtain ⟨t, r9, f9, m9, runT, pulseT, shregT, -⟩ := stop_pulse (keptB.ready hr)
  obtain ⟨-, firstB⟩ := pulsesB.first (by decide)
  obtain ⟨-, lastB⟩ := pulsesB.last (by decide)
  have cfgA := pulseA.kept.cfg
  have cfgB := keptB.cfg
  have dinA : a.dinAt = fun k => s.dinAt (k + 1) := funext pulseA.dinAt
  have dinB : b.dinAt 0 = s.dinAt 9 := (pulsesB.dinAt 0).trans (pulseA.dinAt 8)
  have withinB : ∀ j, j < 8 → _ := pulsesB.within
  have betweenB : ∀ j, j + 1 < 8 → _ := pulsesB.between
  refine ⟨t, ofTen r0 r r9, ofTen f0 f f9, ofTen m0 m m9, fun ls => ?_, ?_⟩
  · simp only [pulseLines, List.append_assoc, List.cons_append, List.nil_append]
    rw [runA, runB, runT]
  · exact {
      kept := keptB.trans pulseT.kept
      first := pulseA.ready_le
      pulse := by
        rintro (_ | j) hj
        · exact ⟨pulseA.high_le, pulseA.fall_le⟩
        obtain hj | rfl : j < 8 ∨ j = 8 := by omega
        · rw [ofTen_mid _ _ _ hj, ofTen_mid _ _ _ hj, ofTen_mid _ _ _ hj, ← cfgA]
          exact withinB j hj
        · exact ⟨cfgB ▸ pulseT.high_le, pulseT.fall_le⟩
      between := by
        rintro (_ | j) hj
        · exact pulseA.tReady ▸ firstB
        obtain hj | rfl : j < 7 ∨ j = 7 := by omega
        · rw [ofTen_mid _ _ _ (by omega), ofTen_mid _ _ _ (by omega), ← cfgA]
          exact betweenB j (by omega)
        · show m 7 + s.cfg.tCkl ≤ r9
          rw [← cfgA]
          exact lastB ▸ pulseT.ready_le
      last := pulseT.time
      trace := by
        rw [flatMap_pulseEntries, pulseT.trace, pulsesB.trace, pulseA.trace, dinA, dinB]
        simp only [List.append_assoc]
        rfl
      shreg := by rw [shregT, pulsesB.shreg, shregA, dinA]; rfl
      c0 := by rw [pulseT.c0, pulsesB.c0, pulseA.c0]
      c1 := by rw [pulseT.c1, pulsesB.c1, pulseA.c1] }

/-! ## The whole conversion -/

/-- What CONV's lines after its acceptance in `s` leave (R94, R96, R97). -/
structure Conversion (s t : State) (T : ConvTimes) : Prop where
  completed : Completed s t
  channel : s.cfg.hasChan = true → t.c0 = chanLevel0 s.chsel ∧ t.c1 = chanLevel1 s.chsel
  noChannel : s.cfg.hasChan = false → t.c0 = s.c0 ∧ t.c1 = s.c1
  shreg : t.shreg = ((List.range 8).map fun k => s.dinAt (k + 1)).foldl shiftIn 0
  result : t.result = t.shreg
  time : t.time = T.stamp
  trace : t.trace = s.trace ++ T.entries s.cfg s.chsel s.dinAt t.result
  allowed : T.Allowed s

theorem convLines_conversion {s : State} (hr : s.ready = true) :
    ∃ t T, runLines (convLines s.cfg) s = .next t ∧ Conversion s t T := by
  obtain ⟨a, t0, t1, runA, lineA⟩ := channel_line hr
  obtain ⟨b, runB, lineB, dataB, -, -, deadTimeB⟩ := dtpass_line a
  have keptB := lineA.kept.trans lineB.kept
  obtain ⟨c, runC, lineC, shregC, bitcntC, -, -, c0C, c1C, -⟩ := select_line (keptB.ready hr)
  have keptC := keptB.trans lineC.kept
  obtain ⟨d, r, f, m, runD, pulsesD⟩ := ten_pulses (keptC.ready hr) bitcntC
  have keptD := keptC.trans pulsesD.kept
  obtain ⟨e, runE, lineE, dataE, -⟩ := deselect_line (keptD.ready hr)
  have keptE := keptD.trans lineE.kept
  obtain ⟨t, runT, lineT, shregT, -, -, resultT, c0T, c1T, -⟩ := stamp_line e
  have hrun : runLines (convLines s.cfg) s = .next t := by
    rw [convLines_eq, runA, runLines_of_next runB, runLines_of_next runC, runD, runLines_of_next runE,
      runLines_of_next runT, runLines_nil]
  have hcompleted : Completed s t := by
    obtain ⟨t', ht', h⟩ := convLines_complete hr
    cases ht'.symm.trans hrun
    exact h
  have c0A : t.c0 = a.c0 := by rw [c0T, dataE.c0, pulsesD.c0, c0C, dataB.c0]
  have c1A : t.c1 = a.c1 := by rw [c1T, dataE.c1, pulsesD.c1, c1C, dataB.c1]
  have shregD : t.shreg = d.shreg := by rw [shregT, dataE.shreg]
  have dinC : c.dinAt = s.dinAt := funext fun k => by rw [lineC.dinAt, lineB.dinAt, lineA.dinAt]; rfl
  refine ⟨t, ⟨t0, t1, b.time, c.time, r, f, m, e.time, t.time⟩, hrun, ?_⟩
  exact {
    completed := hcompleted
    channel := fun hc => by
      obtain ⟨-, -, -, h0, h1⟩ := lineA.channel hc
      exact ⟨c0A.trans h0, c1A.trans h1⟩
    noChannel := fun hc => by
      rw [c0A, c1A, lineA.noChannel hc]
      exact ⟨rfl, rfl⟩
    shreg := by rw [shregD, pulsesD.shreg, shregC, dinC]
    result := resultT.trans shregT.symm
    time := rfl
    trace := by
      rw [lineT.trace, lineE.trace, pulsesD.trace, lineC.trace, lineB.trace, lineA.trace, dinC, lineA.kept.cfg,
        keptE.cfg, ← resultT]
      simp only [ConvTimes.entries, List.append_assoc, List.cons_append, List.nil_append]
    allowed := {
      channel := fun hc => by
        obtain ⟨h0, h1, hhold, -⟩ := lineA.channel hc
        exact ⟨h0, h1, hhold ▸ lineB.ready_le⟩
      noChannel := fun hc => lineA.noChannel hc ▸ lineB.time_le
      deadTime := by
        rw [lineA.kept.cfg, lineA.tDesel] at deadTimeB
        exact of_decide_eq_true deadTimeB
      select := lineC.time_le
      setup := by
        have h := pulsesD.first
        rwa [lineC.tReady, keptB.cfg] at h
      pulse := keptC.cfg ▸ pulsesD.pulse
      between := keptC.cfg ▸ pulsesD.between
      deselect := pulsesD.last.symm.trans_le lineE.time_le
      stamp := lineT.time_le } }

/-- From (IDLE, 0) with Ready and no hold pending CONV is its acceptance and then the whole conversion. -/
theorem execConv_conversion (opd : Byte) {s : State} (hq : s.seq = .idle0) (hr : s.ready = true)
    (ht : s.tReady ≤ s.time) : ∃ t T,
      execConv opd s = .next (t.after (s.trace ++ [(s.time, .accept (cmd16 0x02 opd))])) ∧
      Conversion (s.accepted opd) t T := by
  obtain ⟨t, T, hrun, h⟩ := convLines_conversion (s := s.accepted opd) hr
  refine ⟨t, T, ?_, h⟩
  rw [execConv_accepts opd hq hr ht]
  exact congrArg (Result.andThen · _) hrun

section
variable {s t : State} {T : ConvTimes} {opd : Byte}

/-- The entries of a conversion show the channel of its operand, where there are channel pins (R100). -/
theorem Conversion.trace_of_accepted (h : Conversion (s.accepted opd) t T) :
    t.trace = T.entries s.cfg (chanOf s.cfg opd) s.dinAt t.result := by
  refine h.trace.trans ((List.nil_append _).trans ?_)
  cases hc : s.cfg.hasChan <;> simp [ConvTimes.entries, State.accepted, hc] <;> rfl

/-- The one response of a conversion is RESULT, at the time of the stamp (R101). -/
theorem Conversion.responses_of_accepted (h : Conversion (s.accepted opd) t T) :
    responses t.trace = [(t.time, t.result)] := by
  rw [h.trace_of_accepted, h.time]
  cases hc : s.cfg.hasChan <;> simp only [ConvTimes.entries, hc] <;> rfl

/-- RESULT is made of the second to the ninth draw (R95). -/
theorem Conversion.result_of_accepted (h : Conversion (s.accepted opd) t T) :
    t.result = ((List.range 8).map fun k => s.dinAt (k + 1)).foldl shiftIn 0 :=
  h.result.trans h.shreg

end

/-- CONV with no hold pending responds once, at the time of its stamp, with the byte of its data draws (R95, R101). -/
theorem execConv_responses (opd : Byte) {s t : State} (ht : s.tReady ≤ s.time) (h : execConv opd s = .next t) :
    responses t.trace = responses s.trace ++
      [(t.time, ((List.range 8).map fun k => s.dinAt (k + 1)).foldl shiftIn 0)] := by
  obtain ⟨hq, hr, -⟩ := execConv_eq_next opd h
  obtain ⟨u, T, hrun, hconv⟩ := execConv_conversion opd hq hr ht
  cases hrun.symm.trans h
  rw [State.after, responses_append, responses_append, hconv.responses_of_accepted, hconv.result_of_accepted]
  exact congrArg (· ++ _) (List.append_nil _)

/-- Settles O20: the registers and the response as the conversion leaves them. -/
theorem convCompletesAndRestoresIdle : Obligations.ConvCompletesAndRestoresIdle := by
  intro s opd hq hr ht
  obtain ⟨t, T, hrun, h⟩ := execConv_conversion opd hq hr ht
  have kept := h.completed.kept
  refine ⟨_, hrun, kept.seq.trans hq, h.completed.cs, h.completed.clk, fun hc => ?channel, fun hc => ?noChannel,
    h.result, h.completed.tDesel, ?response, fun p => ?mode, kept.cfg, kept.cmd, kept.agenda, kept.resetCount⟩
  case channel =>
    have hchsel : (s.accepted opd).chsel = chanOf s.cfg opd := if_pos hc
    exact hchsel ▸ h.channel hc
  case noChannel =>
    obtain ⟨h0, h1⟩ := h.noChannel hc
    exact ⟨h0, h1, kept.chsel.trans (if_neg (by simp [hc]))⟩
  case response => exact h.result_of_accepted ▸ execConv_responses opd ht hrun
  case mode => exact (State.after_mode _ t p).trans (kept.mode p)

/-- Settles O21: RESULT is eight shift-ins of the data draws. -/
theorem convReturnsTheEightDataDraws : Obligations.ConvReturnsTheEightDataDraws := by
  intro s opd hq hr ht
  obtain ⟨t, T, hrun, h⟩ := execConv_conversion opd hq hr ht
  have hresult := h.result_of_accepted
  refine ⟨_, hrun, ?value, fun k hk => ?bit⟩
  case value => exact (congrArg BitVec.toNat hresult).trans (toNat_foldl_shiftIn_eight ..)
  case bit =>
    have hlast : 8 - 1 - (7 - k) = k := by omega
    show t.result.getLsbD (7 - k) = _
    rw [hresult, getLsbD_foldl_shiftIn _ _ _ (by omega), if_pos (by omega), hlast]

/-- Settles O22: the times are those of the conversion's entries. -/
theorem convProducesItsTrace : Obligations.ConvProducesItsTrace := by
  intro s opd hq hr ht
  obtain ⟨t, T, hrun, h⟩ := execConv_conversion opd hq hr ht
  have allowed := h.allowed
  refine ⟨_, T.chset0, T.chset1, T.dtpass, T.select, T.deselect, T.stamp, T.rise, T.fall, T.read, hrun, ?trace,
    allowed.channel, allowed.noChannel, allowed.deadTime, allowed.select, allowed.setup, allowed.pulse, allowed.between,
    allowed.deselect, allowed.stamp, allowed.select_le_deselect, h.time, ?tDesel⟩
  case trace =>
    show _ ++ t.trace = _
    rw [h.trace_of_accepted]
    simp only [ConvTimes.entries, List.append_assoc]
    rfl
  case tDesel => exact h.completed.tDesel.trans (congrArg (nowAt s.cfg) h.time)

/-- Settles O23: what the conversion's entries hold is a matter of HAS_CHAN alone. -/
theorem convWritesAndCounts : Obligations.ConvWritesAndCounts := by
  intro s opd hq hr ht
  obtain ⟨t, T, hrun, h⟩ := execConv_conversion opd hq hr ht
  refine ⟨_, (s.time, .accept (cmd16 0x02 opd)) :: t.trace, hrun, List.append_assoc .., ?_⟩
  rw [h.trace_of_accepted]
  cases hc : s.cfg.hasChan <;> simp only [ConvTimes.entries, convWrites, hc] <;> exact ⟨rfl, rfl, rfl, rfl⟩

end Sys2Proof.Machine
end

section
/-! PROOFS. The events of a conversion one by one (40_host_commands.md R103, 41_sequencer_phases.md R110, R128 to R131): an
event that is waited for and taken is a line of CONV, so a conversion in progress completes, and where CONV does. -/

namespace Sys2Proof.Machine

/-! ## The event that leaves each state -/

/-- The effect of the event that leaves a state (R112 to R126). None leaves (IDLE, 0) without a command. -/
def eventEffect : SeqState → State → Result
  | .idle0 => .next
  | .channelSet0 => chset0Effect
  | .channelSet1 => chset1Effect
  | .deadTimeWait0 => dtpassEffect
  | .deadTimeWait1 => selectEffect
  | .selectedSetup0 => riseEffect
  | .startPulse0 => fallEffect
  | .startPulse1 => startSampleEffect
  | .startPulse2 => riseEffect
  | .dataPulse0 => fallEffect
  | .dataPulse1 => dataSampleEffect
  | .dataPulse2 => riseEffect
  | .stopPulse0 => fallEffect
  | .stopPulse1 => stopSampleEffect
  | .stopPulse2 => deselectEffect
  | .stopPulse3 => stampEffect

/-- BITCNT after that event (R115, R121). -/
def bitcntAfter (k : BitVec 4) : SeqState → BitVec 4
  | .deadTimeWait1 => 0
  | .dataPulse1 => k + 1
  | _ => k

/-- The wait for that event (R110, R114). -/
def State.waitedIn (q : SeqState) (s : State) : State := if q = .deadTimeWait0 then s.awaitDeadTime else s.awaitHold

/-- The line of CONV for that event: the wait, and the effect (R94). -/
def eventLine (q : SeqState) (s : State) : Result := eventEffect q (s.waitedIn q)

/-- The micro-step of a busy state, enabled, is the effect of its event and the one successor (R128). -/
theorem exec_enabled {i : Instr} {q : SeqState} {s : State} (hi : fromState i = some q) (hq : q ≠ .idle0)
    (hs : s.seq = q) (ht : s.tReady ≤ s.time) (hg : ownGuard i s = true) :
    exec i s = (eventEffect q s).andThen fun t => .next (t.goto (successor s.cfg s.bitcnt q)) := by
  cases i with
  | accept => cases hi; exact absurd rfl hq
  | dataRiseNext =>
    cases hi
    rw [successor, if_pos (of_decide_eq_true hg)]
    exact if_pos ⟨hs, ht, hg⟩
  | stopRise =>
    cases hi
    have hk : s.bitcnt.toNat = Config.nData := of_decide_eq_true hg
    rw [successor, if_neg hk.not_lt]
    exact if_pos ⟨hs, ht, hg⟩
  | _ => cases hi <;> exact if_pos ⟨hs, ht, hg⟩

/-- A micro-step selected by its state and BITCNT has no guard of its own but the dead-time test. -/
theorem ownGuard_of_selected {i : Instr} {q : SeqState} {s : State} (hi : fromState i = some q) (hq : q ≠ .idle0)
    (hd : decodeState q.code s.bitcnt = .ok i)
    (ht : q = .deadTimeWait0 → deadTimeOk s.cfg s.now s.tDesel = true) : ownGuard i s = true := by
  cases i with
  | accept => cases hi; exact absurd rfl hq
  | dtpass => cases hi; exact ht rfl
  | dataRiseNext => cases hi; exact decide_eq_true ((bitcnt_of_decodeState hd).1 rfl)
  | stopRise => cases hi; exact decide_eq_true ((bitcnt_of_decodeState hd).2 rfl)
  | _ => rfl

/-- What an event does to the parameters, to the port and to BITCNT. -/
theorem eventEffect_keeps {q : SeqState} {s u : State} (h : eventEffect q s = .next u) :
    u.cfg = s.cfg ∧ u.cmd = s.cmd ∧ u.bitcnt = bitcntAfter s.bitcnt q := by
  cases q with
  | idle0 | deadTimeWait0 | stopPulse3 => cases h; exact ⟨rfl, rfl, rfl⟩
  | channelSet0 | channelSet1 | deadTimeWait1 | selectedSetup0 | startPulse0 | startPulse2 | dataPulse0 | dataPulse2
  | stopPulse0 | stopPulse2 => obtain rfl := write_eq_next h; exact ⟨rfl, rfl, rfl⟩
  | startPulse1 =>
    obtain rfl := read_eq_next (show startSampleEffect s = .next u from h)
    exact ⟨rfl, rfl, rfl⟩
  | stopPulse1 =>
    obtain rfl := read_eq_next (show stopSampleEffect s = .next u from h)
    exact ⟨rfl, rfl, rfl⟩
  | dataPulse1 => obtain ⟨-, rfl⟩ := dataSample_eq_next h; exact ⟨rfl, rfl, rfl⟩

/-- Every event but the stamp leaves alone what lasts. -/
theorem eventEffect_lasting {q : SeqState} (hq : q ≠ .stopPulse3) : Keeps State.lasting (eventEffect q) := by
  cases q with
  | idle0 => exact keeps_next fun _ => rfl
  | deadTimeWait0 => exact keeps_lasting_dtpass
  | channelSet0 | channelSet1 | deadTimeWait1 | selectedSetup0 | startPulse0 | startPulse2 | dataPulse0 | dataPulse2
  | stopPulse0 | stopPulse2 => exact keeps_lasting_write _ _ fun _ => rfl
  | startPulse1 => exact show Keeps State.lasting startSampleEffect from keeps_lasting_read fun _ _ => rfl
  | stopPulse1 => exact show Keeps State.lasting stopSampleEffect from keeps_lasting_read fun _ _ => rfl
  | dataPulse1 => exact keeps_lasting_dataSample
  | stopPulse3 => exact absurd rfl hq

@[simp] theorem State.pass_lasting (s : State) (d : Nat) : (s.pass d).lasting = s.lasting := rfl

@[simp] theorem State.takeGap_lasting (s : State) : s.takeGap.lasting = s.lasting := rfl

section
variable (q : SeqState) (s : State)

@[simp] theorem State.waitedIn_cfg : (s.waitedIn q).cfg = s.cfg := by unfold State.waitedIn; split <;> simp
@[simp] theorem State.waitedIn_cmd : (s.waitedIn q).cmd = s.cmd := by unfold State.waitedIn; split <;> simp
@[simp] theorem State.waitedIn_bitcnt : (s.waitedIn q).bitcnt = s.bitcnt := by unfold State.waitedIn; split <;> simp
@[simp] theorem State.waitedIn_lasting : (s.waitedIn q).lasting = s.lasting := by
  unfold State.waitedIn
  split <;> simp [State.awaitDeadTime, State.awaitHold, State.idleAway]

/-- After the wait of (DEAD_TIME_WAIT, 0) the dead-time test passes (R114). -/
theorem State.deadTimeOk_waitedIn (hq : q = .deadTimeWait0) :
    deadTimeOk (s.waitedIn q).cfg (s.waitedIn q).now (s.waitedIn q).tDesel = true := by
  rw [State.waitedIn, if_pos hq, s.awaitDeadTime_cfg, s.awaitDeadTime_tDesel]
  exact deadTimeOk_awaitDeadTime s

/-- After the wait no hold is pending. -/
theorem State.tReady_le_waitedIn : (s.waitedIn q).tReady ≤ (s.waitedIn q).time := by
  unfold State.waitedIn
  split
  · simp; omega
  · exact tReady_le_awaitHold s

end

theorem eventLine_keeps {q : SeqState} {s t : State} (h : eventLine q s = .next t) :
    t.cfg = s.cfg ∧ t.cmd = s.cmd ∧ t.bitcnt = bitcntAfter s.bitcnt q := by
  simpa using eventEffect_keeps h

/-! ## The order of the events -/

section
variable (c : Params) {q : SeqState} {k : BitVec 4}

/-- Each event leaves one event less to come. -/
theorem eventsLeft_successor (hq : q ≠ .idle0) (hk : bitcntFits q k = true) :
    eventsLeft (bitcntAfter k q) (successor c k q) + 1 = eventsLeft k q := by
  have hn : Config.nData = 8 := rfl
  cases q with
  | idle0 => exact absurd rfl hq
  | startPulse2 | dataPulse0 | dataPulse1 =>
    simp only [bitcntFits, decide_eq_true_eq] at hk
    simp [eventsLeft, bitcntAfter, successor]
    omega
  | dataPulse2 =>
    simp only [bitcntFits, Bool.and_eq_true, decide_eq_true_eq] at hk
    by_cases hlt : k.toNat < Config.nData
    · rw [successor, if_pos hlt]
      simp only [eventsLeft, bitcntAfter]
      omega
    · rw [successor, if_neg hlt]
      simp only [eventsLeft]
      omega
  | _ => rfl

/-- BITCNT stays in its range from event to event (R144). -/
theorem bitcntFits_successor (hq : q ≠ .idle0) (hk : bitcntFits q k = true) :
    bitcntFits (successor c k q) (bitcntAfter k q) = true := by
  have hn : Config.nData = 8 := rfl
  cases q with
  | idle0 => exact absurd rfl hq
  | startPulse2 =>
    have hk : k.toNat = 0 := of_decide_eq_true hk
    exact decide_eq_true (show k.toNat < Config.nData by omega)
  | dataPulse1 =>
    have hk : k.toNat < Config.nData := of_decide_eq_true hk
    simp [bitcntFits, bitcntAfter, successor]
    omega
  | dataPulse2 =>
    obtain ⟨-, hle⟩ : 0 < k.toNat ∧ k.toNat ≤ Config.nData := by simpa [bitcntFits] using hk
    by_cases hlt : k.toNat < Config.nData
    · rw [successor, if_pos hlt]
      exact decide_eq_true hlt
    · rw [successor, if_neg hlt]
      exact decide_eq_true (by omega : k.toNat = Config.nData)
  | selectedSetup0 | startPulse0 | startPulse1 | dataPulse0 | stopPulse0 | stopPulse1 | stopPulse2 => exact hk
  | channelSet0 | channelSet1 | deadTimeWait0 | deadTimeWait1 | stopPulse3 => rfl

/-- Only in (IDLE, 0) is no event to come. -/
theorem eventsLeft_eq_zero_iff (hk : bitcntFits q k = true) : eventsLeft k q = 0 ↔ q = .idle0 := by
  constructor
  · intro h
    by_contra hq
    have hleft := eventsLeft_successor Params.default hq hk
    omega
  · rintro rfl; rfl

/-- Only the stamp leads to (IDLE, 0). -/
theorem eq_stopPulse3_of_successor (hq : q ≠ .idle0) (h : successor c k q = .idle0) : q = .stopPulse3 := by
  cases q with
  | idle0 => exact absurd rfl hq
  | dataPulse2 => rw [successor] at h; split at h <;> cases h
  | stopPulse3 => rfl
  | _ => cases h

end

/-- The states that the next `n` events leave, from (PHASE, SUB) `q` with BITCNT `k`. -/
def eventPath (c : Params) : Nat → SeqState → BitVec 4 → List SeqState
  | 0, _, _ => []
  | n + 1, q, k => q :: eventPath c n (successor c k q) (bitcntAfter k q)

/-- With `n` data bits still to come, the states that are left when a data pulse is over (R119 to R126). -/
theorem eventPath_dataPulse2 (c : Params) (n : Nat) {k : BitVec 4} (hk : k.toNat + n = Config.nData) :
    eventPath c (3 * n + 5) .dataPulse2 k =
      (List.replicate n [SeqState.dataPulse2, .dataPulse0, .dataPulse1]).flatten ++
        [.dataPulse2, .stopPulse0, .stopPulse1, .stopPulse2, .stopPulse3] := by
  have h8 : Config.nData = 8 := rfl
  induction n generalizing k with
  | zero =>
    have hstop : successor c k .dataPulse2 = .stopPulse0 := if_neg (by omega)
    rw [Nat.mul_zero, Nat.zero_add, eventPath, hstop]
    rfl
  | succ n ih =>
    have hrise : successor c k .dataPulse2 = .dataPulse0 := if_pos (by omega)
    have hnext : (k + 1).toNat + n = Config.nData := by simp; omega
    rw [Nat.mul_succ, Nat.add_right_comm, eventPath, hrise, eventPath, eventPath]
    exact congrArg (.dataPulse2 :: .dataPulse0 :: .dataPulse1 :: ·) (ih hnext)

/-- The lines of CONV after its acceptance are those of its events in their order (R94, R128). -/
theorem convLines_eq_eventPath (c : Params) (k : BitVec 4) :
    convLines c = (eventPath c (convEvents c) (successor c k .idle0) k).map eventLine := by
  have hpath : eventPath c (3 * 7 + 5 + 8) .deadTimeWait0 k =
      .deadTimeWait0 :: .deadTimeWait1 :: .selectedSetup0 :: .startPulse0 :: .startPulse1 :: .startPulse2 ::
        .dataPulse0 :: .dataPulse1 :: eventPath c (3 * 7 + 5) .dataPulse2 1 := rfl
  rw [eventPath_dataPulse2 c 7 rfl] at hpath
  have hlines : (eventPath c (3 * 7 + 5 + 8) .deadTimeWait0 k).map eventLine =
      afterDeadTime dtpassEffect :: afterHold selectEffect ::
        (pulseLines ++ [afterHold deselectEffect, afterHold stampEffect]) := by
    rw [hpath]
    rfl
  rw [convLines_eq, ← hlines]
  cases hc : c.hasChan <;> simp only [convEvents, successor, hc] <;> rfl

/-! ## Waiting and going is a line of CONV -/

/-- The engine with the sequencer in `q`, the moves `rest` to come, and `n` moves made. -/
def State.placed (q : SeqState) (rest : List Move) (n : Nat) (s : State) : State :=
  { s with seq := q, agenda := rest, moveCount := n }

/-- An operation does the same wherever the sequencer rests and whatever moves are to come. -/
def IgnoresPlace (f : State → Result) : Prop :=
  ∀ q rest n s, f (s.placed q rest n) = (f s).andThen fun t => .next (t.placed q rest n)

theorem ignoresPlace_next {k : State → State} (hk : ∀ q rest n s, k (s.placed q rest n) = (k s).placed q rest n) :
    IgnoresPlace fun s => .next (k s) :=
  fun q rest n s => congrArg Host.Outcome.next (hk q rest n s)

/-- One pin write, of a level that the place does not decide, and then `k`. -/
theorem ignoresPlace_write {p : Pin} {v : State → Bit} {k : State → State}
    (hv : ∀ q rest n s, v (s.placed q rest n) = v s)
    (hk : ∀ q rest n s, k (s.placed q rest n) = (k s).placed q rest n) :
    IgnoresPlace fun s => (pinWrite p (v s) s).andThen fun t => .next (k t) := by
  intro q rest n s
  have hmode : (s.placed q rest n).mode p = s.mode p := by cases p <;> rfl
  have hlatch : (s.placed q rest n).setLatch p (v s) = (s.setLatch p (v s)).placed q rest n := by cases p <;> rfl
  simp only [hv, pinWrite, hmode, hlatch]
  by_cases hc : s.cfg.hasPin p = true ∧ neededMode p = .output ∧ s.mode p = .output
  · have hc' : (s.placed q rest n).cfg.hasPin p = true ∧ neededMode p = .output ∧ s.mode p = .output := hc
    rw [if_pos hc, if_pos hc']
    exact congrArg Host.Outcome.next (hk q rest n ((s.setLatch p (v s)).record (.write p (v s))))
  · have hc' : ¬((s.placed q rest n).cfg.hasPin p = true ∧ neededMode p = .output ∧ s.mode p = .output) := hc
    rw [if_neg hc, if_neg hc']
    rfl

/-- One DIN read and then `k` of its level. -/
theorem ignoresPlace_read {k : Bit → State → State}
    (hk : ∀ b q rest n s, k b (s.placed q rest n) = (k b s).placed q rest n) :
    IgnoresPlace (pinRead fun b t => .next (k b t)) := by
  intro q rest n s
  by_cases hc : s.modeDin = .inputPullup
  · have hc' : (s.placed q rest n).modeDin = .inputPullup := hc
    rw [pinRead_pullUp hc, pinRead_pullUp hc']
    exact congrArg Host.Outcome.next (hk (s.dinAt 0) q rest n (s.takeDin.record (.read (s.dinAt 0))))
  · have hc' : (s.placed q rest n).modeDin ≠ .inputPullup := hc
    rw [pinRead_of_not_pullUp hc, pinRead_of_not_pullUp hc']
    rfl

theorem ignoresPlace_dataSample : IgnoresPlace dataSampleEffect := by
  intro q rest n s
  by_cases hk : s.bitcnt.toNat < Config.nData
  · have hk' : (s.placed q rest n).bitcnt.toNat < Config.nData := hk
    rw [dataSampleEffect, if_pos hk', dataSampleEffect, if_pos hk]
    refine ignoresPlace_read ?_ q rest n s
    exact fun _ _ _ _ _ => rfl
  · have hk' : ¬(s.placed q rest n).bitcnt.toNat < Config.nData := hk
    rw [dataSampleEffect, if_neg hk', dataSampleEffect, if_neg hk]
    rfl

theorem ignoresPlace_eventEffect (q : SeqState) : IgnoresPlace (eventEffect q) := by
  cases q with
  | idle0 => exact ignoresPlace_next fun _ _ _ _ => rfl
  | deadTimeWait0 | stopPulse3 => exact ignoresPlace_next fun _ _ _ _ => rfl
  | channelSet0 | channelSet1 | selectedSetup0 | startPulse0 | startPulse2 | dataPulse0 | dataPulse2 | stopPulse0
  | stopPulse2 => exact ignoresPlace_write (fun _ _ _ _ => rfl) fun _ _ _ _ => rfl
  | deadTimeWait1 =>
    exact ignoresPlace_write (k := fun t => ({ t with shreg := 0, bitcnt := 0 } : State).endEvent t.cfg.tCss)
      (fun _ _ _ _ => rfl) fun _ _ _ _ => rfl
  | startPulse1 =>
    exact show IgnoresPlace startSampleEffect from ignoresPlace_read fun _ _ _ _ _ => rfl
  | stopPulse1 =>
    exact show IgnoresPlace stopSampleEffect from ignoresPlace_read fun _ _ _ _ _ => rfl
  | dataPulse1 => exact ignoresPlace_dataSample

/-- Where the sequencer rests decides what is waited for. -/
theorem await_placed (q : SeqState) (rest : List Move) (n : Nat) (s : State) :
    (s.placed q rest n).await = (s.waitedIn q).placed q rest n := by
  show (if q = .deadTimeWait0 then _ else _) = _
  unfold State.waitedIn
  split <;> rfl

theorem steps_one (s : State) : steps 1 s = step s := by
  show Result.andThen (step s) .next = _
  cases step s <;> rfl

theorem steps_two (s : State) : steps 2 s = Result.andThen (step s) step := by
  show Result.andThen (step s) (steps 1) = _
  congr 1
  funext t
  exact steps_one t

/-- Waiting for the event that leaves a busy state, and taking it, is the line of CONV for it (R103, R110). -/
theorem steps_event {q : SeqState} {s : State} (hq : q ≠ .idle0) (hk : bitcntFits q s.bitcnt = true)
    (rest : List Move) (n : Nat) : steps 2 (s.placed q (.await :: .go :: rest) n) =
      (eventLine q s).andThen fun t => .next (t.placed (successor s.cfg s.bitcnt q) rest (n + 2)) := by
  obtain ⟨i, hd, hi⟩ := decodeState_of_fits hk
  have hwait : step (s.placed q (.await :: .go :: rest) n) = .next ((s.waitedIn q).placed q (.go :: rest) (n + 1)) :=
    (step_await rfl).trans (congrArg Host.Outcome.next (await_placed q (.go :: rest) (n + 1) s))
  have hgo : step ((s.waitedIn q).placed q (.go :: rest) (n + 1)) = exec i ((s.waitedIn q).placed q rest (n + 2)) :=
    step_go rfl (by simpa [State.placed] using hd)
  have hguard : ownGuard i ((s.waitedIn q).placed q rest (n + 2)) = true := by
    exact ownGuard_of_selected hi hq (by simpa [State.placed] using hd) (s.deadTimeOk_waitedIn q)
  have hexec : exec i ((s.waitedIn q).placed q rest (n + 2)) =
      (eventLine q s).andThen fun t => .next (t.placed (successor s.cfg s.bitcnt q) rest (n + 2)) := by
    rw [exec_enabled (s := (s.waitedIn q).placed q rest (n + 2)) hi hq rfl (s.tReady_le_waitedIn q) hguard,
      ignoresPlace_eventEffect, andThen_assoc]
    simp [eventLine, State.placed, State.goto]
  rw [steps_two, hwait, andThen_next, hgo, hexec]

/-- As many events as are left are the lines of CONV that are left. -/
theorem steps_events (n : Nat) {q : SeqState} {s : State} (hk : bitcntFits q s.bitcnt = true)
    (hn : eventsLeft s.bitcnt q = n) (rest : List Move) (m : Nat) :
    steps (2 * n) (s.placed q (awaitGo n ++ rest) m) =
      (runLines ((eventPath s.cfg n q s.bitcnt).map eventLine) s).andThen fun t =>
        .next (t.placed .idle0 rest (m + 2 * n)) := by
  induction n generalizing q s m with
  | zero =>
    obtain rfl := (eventsLeft_eq_zero_iff hk).1 hn
    rfl
  | succ n ih =>
    have hq : q ≠ .idle0 := fun h => by simp [(eventsLeft_eq_zero_iff hk).2 h] at hn
    have hmoves : awaitGo (n + 1) ++ rest = .await :: .go :: (awaitGo n ++ rest) := rfl
    rw [Nat.mul_succ, Nat.add_comm, steps_add, hmoves, steps_event hq hk, eventPath, List.map_cons, runLines_cons]
    cases hline : eventLine q s with
    | next t =>
      obtain ⟨hcfg, -, hbitcnt⟩ := eventLine_keeps hline
      have hleft := eventsLeft_successor s.cfg hq hk
      have hfits := bitcntFits_successor s.cfg hq hk
      rw [← hbitcnt] at hleft hfits
      simp only [andThen_next]
      rw [ih hfits (by omega), hcfg, hbitcnt, Nat.add_assoc, Nat.add_comm 2]
    | fault e => cases e
    | refused e => rfl

/-! ## CONV as its micro-steps -/

/-- ACCEPT in (IDLE, 0) with Ready and no hold pending takes the CONV word at the port (R111). -/
theorem execAccept_takes {s u : State} {opd : Byte} (hq : s.seq = .idle0) (hr : s.ready = true)
    (ht : s.tReady ≤ s.time) (hc : s.cmd = some (cmd16 0x02 opd)) (hu : acceptEffect opd s = .next u) :
    execAccept s = .next (u.goto (successor s.cfg s.bitcnt .idle0)) := by
  rw [execAccept, convOperand_of_conv hc]
  exact (if_neg (by simp [hr])).trans (microStep_enabled hq ht rfl hu)

/-- Presenting a CONV word is ACCEPT (R91, R111). -/
theorem step_present_conv {s u : State} {opd : Byte} (hq : s.seq = .idle0) (hr : s.ready = true)
    (ht : s.tReady ≤ s.time) (hu : acceptEffect opd s = .next u) (rest : List Move) :
    step { s with agenda := .present (cmd16 0x02 opd) :: rest } =
      .next (u.placed (successor s.cfg s.bitcnt .idle0) rest (s.moveCount + 1)) := by
  have hdecode : decodeCommand (cmd16 0x02 opd) = .conv opd := decodeCommand_of_row (r := 1) (by decide)
  rw [step_present (s := { s with agenda := .present (cmd16 0x02 opd) :: rest }) rfl (by simp [State.busy, hq]), hdecode]
  cases hu
  exact execAccept_takes
    (s := { s with agenda := rest, moveCount := s.moveCount + 1, cmd := some (cmd16 0x02 opd) }) hq hr ht rfl rfl

/-- CONV in (IDLE, 0) with Ready and no hold pending is its acceptance and then its lines (R94). -/
theorem execConv_eq_lines (opd : Byte) {s : State} (hq : s.seq = .idle0) (hr : s.ready = true)
    (ht : s.tReady ≤ s.time) : execConv opd s = (acceptEffect opd s).andThen (runLines (convLines s.cfg)) := by
  rw [execConv, if_neg (by simp [State.busy, hq]), if_pos hr, if_pos ht]

/-- ACCEPT leads to the first event of the conversion, all of whose events are still to come (R111, R131). -/
theorem eventsLeft_after_accept (c : Params) (k : BitVec 4) :
    bitcntFits (successor c k .idle0) k = true ∧ eventsLeft k (successor c k .idle0) = convEvents c := by
  cases hc : c.hasChan <;> simp only [successor, convEvents, hc] <;> exact ⟨rfl, rfl⟩

/-- Settles O24: ACCEPT is the acceptance of CONV, and the events after it are its lines. -/
theorem convAgreesWithItsMicroSteps : Obligations.ConvAgreesWithItsMicroSteps := by
  intro s opd hq hr ht
  obtain ⟨u, hu⟩ : ∃ u, acceptEffect opd s = .next u := ⟨_, acceptEffect_eq opd s⟩
  obtain ⟨hcfg, hready, hbitcnt, hseq, hagenda⟩ : u.cfg = s.cfg ∧ u.ready = true ∧ u.bitcnt = s.bitcnt ∧
      u.seq = .idle0 ∧ u.agenda = s.agenda := by
    cases hu
    exact ⟨rfl, hr, rfl, hq, rfl⟩
  obtain ⟨t, hrun, ⟨kept, -⟩⟩ := convLines_complete hready
  refine ⟨t, ?conv, ?steps⟩
  case conv =>
    show execConv opd s = _
    rw [execConv_eq_lines opd hq hr ht, hu, andThen_next, ← hcfg, hrun]
  case steps =>
    obtain ⟨hfits, hleft⟩ := eventsLeft_after_accept u.cfg u.bitcnt
    have htq : t.seq = .idle0 := kept.seq.trans hseq
    have hta : t.agenda = s.agenda := kept.agenda.trans hagenda
    rw [steps_add, steps_one, step_present_conv hq hr ht hu, andThen_next, ← hcfg, ← hbitcnt,
      steps_events _ hfits hleft, ← convLines_eq_eventPath, hrun, andThen_next, ← htq, ← hta, Nat.add_assoc]
    rfl

/-! ## A conversion in progress completes -/

/-- One event of a conversion in progress: the engine waits, still busy, then takes the event, and there is one less to
come. -/
structure EventTaken (s w t : State) (rest : List Move) : Prop where
  wait : step s = .next w
  waiting : w.seq = s.seq
  nextMove : w.nextMove = .go
  go : step w = .next t
  inv : t.Inv
  line : ∃ u, eventLine s.seq s = .next u ∧
    t = u.placed (successor s.cfg s.bitcnt s.seq) rest (s.moveCount + 2)

theorem event_taken {s : State} {rest : List Move} (hs : s.Inv) (hb : s.busy = true)
    (ha : s.agenda = .await :: .go :: rest) : ∃ w t, EventTaken s w t rest := by
  have hq : s.seq ≠ .idle0 := by simpa [State.busy] using hb
  have hwait : step s = .next s.takeMove.await := step_await (by simp [State.nextMove, ha])
  have hagenda : s.takeMove.await.agenda = .go :: rest := by simp [ha]
  have hbusy : s.takeMove.await.busy = true := by simpa [State.busy] using hq
  have hinv := stepKeepsTheInvariant _ _ hs hwait
  obtain ⟨t, hgo⟩ := conversionInProgressIsNeverRefused _ rest hinv hbusy (.inl hagenda)
  have htwo := steps_event hq hs.bitcnt_fits rest s.moveCount
  rw [← ha, show s.placed s.seq s.agenda s.moveCount = s from rfl, steps_two, hwait, andThen_next, hgo] at htwo
  obtain ⟨u, hu, hn⟩ := andThen_eq_next htwo.symm
  cases hn
  exact ⟨_, _, {
    wait := hwait
    waiting := by simp
    nextMove := by simp [State.nextMove, ha]
    go := hgo
    inv := stepKeepsTheInvariant _ _ hinv hgo
    line := ⟨u, hu, rfl⟩ }⟩

/-- A step that neither finds the run over nor abandons a command goes on with it (R106). -/
theorem finalState_step {s t : State} (n : Nat) (ho : s.isOver = false) (ha : s.abandons = false)
    (h : step s = .next t) : finalState (n + 1) s = finalState n t := by
  simp [finalState, ho, ha, h]

theorem idle_of_not_busy {s : State} (h : s.busy = false) : s.seq = .idle0 := by
  simpa [State.busy] using h

/-- While the engine is busy the run is not over. -/
theorem isOver_of_busy {s : State} (hb : s.busy = true) : s.isOver = false := by
  simp_all [State.isOver, State.busy]

theorem abandons_of_ne_reset {s : State} (h : s.nextMove ≠ .reset) : s.abandons = false := by
  simp [State.abandons, h]

/-- What the completion `t` of the conversion in progress in `s` leaves (R106, R130). -/
structure Finished (s t : State) (rest : List Move) : Prop where
  seq : t.seq = .idle0
  cs : t.cs = high
  clk : t.clk = low
  result : t.result = t.shreg
  agenda : t.agenda = rest
  cmd : t.cmd = s.cmd
  responses : responses t.trace = responses s.trace ++ [(t.time, t.result)]

section
variable {s w t : State} {rest : List Move}

theorem EventTaken.cmd (h : EventTaken s w t rest) : t.cmd = s.cmd := by
  obtain ⟨u, hu, rfl⟩ := h.line
  exact (eventLine_keeps hu).2.1

theorem EventTaken.eventsLeft (h : EventTaken s w t rest) (hs : s.Inv) (hb : s.busy = true) :
    eventsLeft t.bitcnt t.seq + 1 = eventsLeft s.bitcnt s.seq := by
  obtain ⟨u, hu, rfl⟩ := h.line
  show Machine.eventsLeft u.bitcnt _ + 1 = _
  rw [(eventLine_keeps hu).2.2]
  exact eventsLeft_successor s.cfg (by simpa [State.busy] using hb) hs.bitcnt_fits

/-- The two steps of the event are no end of the run. -/
theorem EventTaken.finalState (h : EventTaken s w t rest) (hb : s.busy = true) (ha : s.agenda = .await :: .go :: rest)
    (n : Nat) : finalState (n + 2) s = finalState n t := by
  have hw : w.busy = true := by simpa [State.busy, h.waiting] using hb
  rw [finalState_step (n + 1) (isOver_of_busy hb) (abandons_of_ne_reset (by simp [State.nextMove, ha])) h.wait,
    finalState_step n (isOver_of_busy hw) (abandons_of_ne_reset (by simp [h.nextMove])) h.go]

/-- An event that leaves the engine busy is not the stamp, so it gives no response (R30). -/
theorem EventTaken.responses (h : EventTaken s w t rest) (ht : t.busy = true) :
    responses t.trace = responses s.trace := by
  obtain ⟨u, hu, rfl⟩ := h.line
  have hstamp : s.seq ≠ .stopPulse3 := fun hq => by simp [State.busy, State.placed, successor, hq] at ht
  have hlast := eventEffect_lasting hstamp _ _ hu
  rw [s.waitedIn_lasting] at hlast
  exact congrArg Lasting.responses hlast

/-- The event that leaves the engine idle is the stamp, and finishes the conversion (R126). -/
theorem EventTaken.finished (h : EventTaken s w t rest) (hs : s.Inv) (hb : s.busy = true) (ht : t.busy = false) :
    Finished s t rest := by
  obtain ⟨u, hu, rfl⟩ := h.line
  have hidle : successor s.cfg s.bitcnt s.seq = .idle0 := idle_of_not_busy ht
  have hq := eq_stopPulse3_of_successor s.cfg (by simpa [State.busy] using hb) hidle
  have hcs := hs.cs_level (hs.ready_of_busy hb)
  have hclk := hs.clk_level (hs.ready_of_busy hb)
  rw [hq] at hu hcs hclk
  obtain ⟨v, hv, line, shreg, -, -, result, -, -, cs, clk⟩ := stamp_line s
  cases hv.symm.trans hu
  exact {
    seq := hidle
    cs := cs.trans hcs
    clk := clk.trans hclk
    result := result.trans shreg.symm
    agenda := rfl
    cmd := line.kept.cmd
    responses := by
      show Machine.responses u.trace = _ ++ [(u.time, u.result)]
      rw [line.trace, responses_append, result]
      rfl }

end

/-- What finishes later has finished from here. -/
theorem Finished.of_event {s w t f : State} {moves rest : List Move} (h : EventTaken s w t moves) (ht : t.busy = true)
    (hf : Finished t f rest) : Finished s f rest :=
  { hf with cmd := hf.cmd.trans h.cmd, responses := h.responses ht ▸ hf.responses }

/-- By induction on the events that are left: a busy engine that meets the invariant completes (R130, R173). -/
theorem busy_completes (n : Nat) {s : State} {rest : List Move} (hs : s.Inv) (hb : s.busy = true)
    (hn : eventsLeft s.bitcnt s.seq = n) (ha : s.agenda = awaitGo n ++ rest) :
    ∃ t, steps (2 * n) s = .next t ∧ Finished s t rest ∧
      (s.cmd = none → rest.filterMap Move.command = [] → finalState (2 * n) s = some t) := by
  induction n generalizing s with
  | zero =>
    have hq := (eventsLeft_eq_zero_iff hs.bitcnt_fits).1 hn
    simp [State.busy, hq] at hb
  | succ n ih =>
    obtain ⟨w, t, hevent⟩ := event_taken (rest := awaitGo n ++ rest) hs hb ha
    have hleft : eventsLeft t.bitcnt t.seq = n := by
      have := hevent.eventsLeft hs hb
      omega
    have hsteps (m : Nat) : steps (m + 2) s = steps m t := by
      rw [Nat.add_comm, steps_add, steps_two, hevent.wait, andThen_next, hevent.go, andThen_next]
    rw [Nat.mul_succ, hsteps, hevent.finalState hb ha]
    cases ht : t.busy with
    | true =>
      obtain ⟨u, -, rfl⟩ := hevent.line
      obtain ⟨f, hrun, hfin, hfinal⟩ := ih hevent.inv ht hleft rfl
      exact ⟨f, hrun, hfin.of_event hevent ht, fun hc => hfinal (hevent.cmd.trans hc)⟩
    | false =>
      have hfin := hevent.finished hs hb ht
      have hn : n = 0 := by rw [← hleft, hfin.seq]; rfl
      subst hn
      refine ⟨t, rfl, hfin, fun hc hrest => ?_⟩
      have hover : t.isOver = true := by
        simp [State.isOver, State.stream, awaitGo, hfin.seq, hfin.cmd, hfin.agenda, hc, hrest]
      exact if_pos hover

/-- Settles O45: the invariant does not see the agenda, so the conversion completes with these moves to come. -/
theorem busyEngineCompletes : Obligations.BusyEngineCompletes := by
  intro s rest hs hb
  obtain ⟨t, hrun, hfin, hfinal⟩ := busy_completes (rest := rest) (eventsLeft s.bitcnt s.seq)
    (s := { s with agenda := awaitGo (eventsLeft s.bitcnt s.seq) ++ rest }) (hs.later rfl le_rfl) hb rfl rfl
  exact ⟨t, hrun, hfin.seq, hfin.cs, hfin.clk, hfin.result, hfin.agenda, hfin.responses, hfinal⟩

end Sys2Proof.Machine
end

section
/-! PROOFS. What DIN reads find reaches SHREG, RESULT and the response, and nothing else that is seen (40_host_commands.md
R95, R96, R105): two runs that differ in the data alone stay that way. -/

namespace Sys2Proof.Machine

/-! ## Two states that differ in the data alone -/

/-- What the levels of DIN decide: two registers, what is left of the script, and the trace, which holds the levels. -/
structure Data where
  shreg : Byte
  result : Byte
  dinScript : List Bit
  dinCount : Nat
  trace : List (Nat × Event)

/-- The state with other data. -/
def State.withData (d : Data) (s : State) : State := { s with
  shreg := d.shreg
  result := d.result
  dinScript := d.dinScript
  dinCount := d.dinCount
  trace := d.trace }

/-- Two traces with the same pin events and the same levels of cmd_ready, at the same times. -/
structure ShowAlike (a b : List (Nat × Event)) : Prop where
  pins : ∀ o, pinEvents o a = pinEvents o b
  cmdReady : shownBy Event.cmdReady a = shownBy Event.cmdReady b

theorem ShowAlike.refl (a : List (Nat × Event)) : ShowAlike a a := ⟨fun _ => rfl, rfl⟩

theorem ShowAlike.append {a b x y : List (Nat × Event)} (h : ShowAlike a b) (hx : ShowAlike x y) :
    ShowAlike (a ++ x) (b ++ y) where
  pins o := by rw [pinEvents_append, pinEvents_append, h.pins, hx.pins]
  cmdReady := by rw [shownBy_append, shownBy_append, h.cmdReady, hx.cmdReady]

/-- The second state is the first with other data, and their traces show alike. -/
def Alike (s s' : State) : Prop := ∃ d : Data, s' = s.withData d ∧ ShowAlike d.trace s.trace

/-- Whatever the data, the operation answers, and the states it leaves differ in the data alone. -/
def Blind (f : State → Result) : Prop :=
  ∀ s s' t, Alike s s' → f s = .next t → ∃ t', f s' = .next t' ∧ Alike t t'

/-- An event that shows the same in both states may be recorded in both. -/
theorem Alike.record {s s' : State} {e e' : Event} (h : Alike s s')
    (he : ∀ t, ShowAlike [(t, e')] [(t, e)]) : Alike (s.record e) (s'.record e') := by
  obtain ⟨d, rfl, hd⟩ := h
  exact ⟨{ d with trace := d.trace ++ [(s.time, e')] }, rfl, hd.append (he s.time)⟩

theorem Alike.setLatch {s s' : State} (p : Pin) (v : Bit) (h : Alike s s') :
    Alike (s.setLatch p v) (s'.setLatch p v) := by
  obtain ⟨d, rfl, hd⟩ := h
  cases p <;> exact ⟨d, rfl, hd⟩

theorem Alike.takeDin {s s' : State} (h : Alike s s') : Alike s.takeDin s'.takeDin := by
  obtain ⟨d, rfl, hd⟩ := h
  exact ⟨{ d with dinScript := d.dinScript.tail, dinCount := d.dinCount + 1 }, rfl, hd⟩

theorem Alike.endEvent {s s' : State} (n : Nat) (h : Alike s s') : Alike (s.endEvent n) (s'.endEvent n) := by
  obtain ⟨d, rfl, hd⟩ := h
  exact ⟨d, rfl, hd⟩

/-- What is read of a level that DIN decides shows the same whatever the level (R105 (a)). -/
theorem showAlike_read (b b' : Bit) (t : Nat) : ShowAlike [(t, .read b')] [(t, .read b)] :=
  ⟨fun o => by cases o <;> rfl, rfl⟩

theorem showAlike_stamp (n : Nat) (r r' : Byte) (t : Nat) : ShowAlike [(t, .stamp n r')] [(t, .stamp n r)] :=
  ⟨fun _ => rfl, rfl⟩

/-! ## No operation looks at the data -/

theorem blind_next {k : State → State} (hk : ∀ s s', Alike s s' → Alike (k s) (k s')) :
    Blind fun s => .next (k s) := by
  intro s s' t h ht
  cases ht
  exact ⟨_, rfl, hk s s' h⟩

theorem Blind.andThen {f k : State → Result} (hf : Blind f) (hk : Blind k) : Blind fun s => (f s).andThen k := by
  intro s s' t h ht
  obtain ⟨u, hu, hn⟩ := andThen_eq_next ht
  obtain ⟨u', hu', hau⟩ := hf s s' u h hu
  obtain ⟨t', ht', hat⟩ := hk u u' t hau hn
  exact ⟨t', by simp only [hu', andThen_next, ht'], hat⟩

theorem blind_runLines {ls : List (State → Result)} (h : ∀ l ∈ ls, Blind l) : Blind (runLines ls) := by
  induction ls with
  | nil => exact blind_next fun _ _ h => h
  | cons l ls ih =>
    obtain ⟨hl, hls⟩ := List.forall_mem_cons.1 h
    exact hl.andThen (ih hls)

/-- One pin write, of a level that the data do not decide, and then `k` (R96). -/
theorem blind_write {p : Pin} {v : State → Bit} {k : State → State} (hv : ∀ d s, v (s.withData d) = v s)
    (hk : ∀ s s', Alike s s' → Alike (k s) (k s')) :
    Blind fun s => (pinWrite p (v s) s).andThen fun t => .next (k t) := by
  intro s s' t h ht
  obtain ⟨u, hw, hn⟩ := andThen_eq_next ht
  obtain ⟨hp, hd, hm, rfl⟩ := pinWrite_eq_next hw
  cases hn
  have hu := (h.setLatch p (v s)).record (e := .write p (v s)) fun _ => ShowAlike.refl _
  obtain ⟨d, rfl, -⟩ := h
  have hm' : (s.withData d).mode p = .output := by cases p <;> exact hm
  refine ⟨_, ?_, hk _ _ hu⟩
  simp only [hv, pinWrite_output (s := s.withData d) hp hd hm', andThen_next]

/-- One DIN read, and then `k` of its level. -/
theorem blind_read {k : Bit → State → State} (hk : ∀ b b' s s', Alike s s' → Alike (k b s) (k b' s')) :
    Blind (pinRead fun b t => .next (k b t)) := by
  intro s s' t h ht
  have hm : s.modeDin = .inputPullup := by
    by_contra hm
    rw [pinRead_of_not_pullUp hm] at ht
    cases ht
  obtain rfl := read_eq_next ht
  have hu := h.takeDin.record (showAlike_read (s.dinAt 0) (s'.dinAt 0))
  obtain ⟨d, rfl, -⟩ := h
  exact ⟨_, pinRead_pullUp hm, hk _ _ _ _ hu⟩

theorem blind_dataSample : Blind dataSampleEffect := by
  have hread : Blind (pinRead fun b t => .next
      (({ t with shreg := shiftIn t.shreg b, bitcnt := t.bitcnt + 1 } : State).endEvent t.cfg.tCkl)) := by
    refine blind_read fun b b' s s' h => ?_
    obtain ⟨d, rfl, hd⟩ := h
    exact ⟨{ d with shreg := shiftIn d.shreg b' }, rfl, hd⟩
  intro s s' t h ht
  obtain ⟨hk, -⟩ := dataSample_eq_next ht
  rw [dataSampleEffect, if_pos hk] at ht
  obtain ⟨t', ht', hat⟩ := hread s s' t h ht
  obtain ⟨d, rfl, -⟩ := h
  exact ⟨t', (if_pos hk).trans ht', hat⟩

theorem blind_accept (opd : Byte) : Blind (acceptEffect opd) := by
  intro s s' t h ht
  cases ht
  obtain ⟨d, rfl, hd⟩ := h
  exact ⟨_, rfl, { d with trace := d.trace ++ [(s.time, .accept (cmd16 0x02 opd))] }, rfl, hd.append (ShowAlike.refl _)⟩

/-- No event of a conversion looks at the data (R96). -/
theorem blind_eventEffect (q : SeqState) : Blind (eventEffect q) := by
  cases q with
  | idle0 => exact blind_next fun _ _ h => h
  | channelSet0 | startPulse0 | dataPulse0 | stopPulse0 | stopPulse2 =>
    exact blind_write (fun _ _ => rfl) fun _ _ h => h.endEvent 0
  | channelSet1 | selectedSetup0 | startPulse2 | dataPulse2 =>
    refine blind_write (fun _ _ => rfl) fun _ _ h => ?_
    obtain ⟨d, rfl, hd⟩ := h
    exact ⟨d, rfl, hd⟩
  | deadTimeWait0 =>
    refine blind_next fun s s' h => ?_
    obtain ⟨d, rfl, hd⟩ := h
    exact (Alike.record ⟨d, rfl, hd⟩ fun _ => ShowAlike.refl _).endEvent 0
  | deadTimeWait1 =>
    refine blind_write (k := fun t => ({ t with shreg := 0, bitcnt := 0 } : State).endEvent t.cfg.tCss)
      (fun _ _ => rfl) fun _ _ h => ?_
    obtain ⟨d, rfl, hd⟩ := h
    exact ⟨{ d with shreg := 0 }, rfl, hd⟩
  | startPulse1 =>
    refine show Blind startSampleEffect from blind_read fun _ _ _ _ h => ?_
    obtain ⟨d, rfl, hd⟩ := h
    exact ⟨d, rfl, hd⟩
  | stopPulse1 => exact show Blind stopSampleEffect from blind_read fun _ _ _ _ h => h.endEvent 0
  | dataPulse1 => exact blind_dataSample
  | stopPulse3 =>
    refine blind_next fun s s' h => ?_
    obtain ⟨d, rfl, hd⟩ := h
    exact ⟨{ d with result := d.shreg, trace := d.trace ++ [(s.time, .stamp s.now d.shreg)] }, rfl,
      hd.append (showAlike_stamp s.now s.shreg d.shreg s.time)⟩

theorem blind_eventLine (q : SeqState) : Blind (eventLine q) := by
  intro s s' t h ht
  refine blind_eventEffect q (s.waitedIn q) (s'.waitedIn q) t ?_ ht
  obtain ⟨d, rfl, hd⟩ := h
  refine ⟨d, ?_, ?_⟩
  · unfold State.waitedIn
    split <;> rfl
  · unfold State.waitedIn
    split <;> simpa using hd

/-! ## No instruction looks at the data -/

theorem Alike.idleAway {s s' : State} (h : Alike s s') : Alike s.idleAway s'.idleAway := by
  obtain ⟨d, rfl, hd⟩ := h
  exact ⟨d, rfl, hd⟩

theorem blind_execInit (opd : Byte) : Blind (execInit opd) := by
  intro s s' t h ht
  have hq := idle_of_execInit opd ht
  have hfirst := (execInit_idle opd hq).symm.trans ht
  obtain ⟨d, rfl, hd⟩ := h
  refine ⟨_, execInit_idle (s := s.withData d) opd hq, ?_⟩
  cases hfirst
  exact ⟨{ d with trace := d.trace ++ _ }, rfl, hd.append (ShowAlike.refl _)⟩

/-- CONV answers the same moves of CS, CLK, C0 and C1 whatever DIN reads find (R96). -/
theorem blind_execConv (opd : Byte) : Blind (execConv opd) := by
  intro s s' t h ht
  obtain ⟨hq, hr, -⟩ := execConv_eq_next opd ht
  have hlines : ∀ l ∈ convLines s.cfg, Blind l := by
    rw [convLines_eq_eventPath s.cfg 0]
    simp only [List.forall_mem_map]
    exact fun q _ => blind_eventLine q
  obtain hle | hlt := Nat.lt_or_ge s.time s.tReady
  · rw [execConv_holds opd hq hr hle] at ht
    cases ht
    obtain ⟨d, rfl, hd⟩ := h
    exact ⟨_, execConv_holds (s := s.withData d) opd hq hr hle, ⟨d, rfl, hd⟩⟩
  · rw [execConv_eq_lines opd hq hr hlt] at ht
    obtain ⟨t', ht', hat⟩ := (blind_accept opd).andThen (blind_runLines hlines) s s' t h ht
    obtain ⟨d, rfl, -⟩ := h
    exact ⟨t', (execConv_eq_lines (s := s.withData d) opd hq hr hlt).trans ht', hat⟩

/-- A micro-step does not look at the data if its guard and its effect do not. -/
theorem blind_microStep {q q' : SeqState} {g : State → Bool} {f : State → Result}
    (hguard : ∀ d s, g (s.withData d) = g s) (hf : Blind f) : Blind fun s => microStep q (g s) f q' s := by
  intro s s' t h ht
  obtain ⟨hs, hle, hg, u, hu, rfl⟩ | ⟨hdis, rfl⟩ := microStep_eq_next ht
  · obtain ⟨u', hu', d, rfl, hd⟩ := hf s s' u h hu
    obtain ⟨d', rfl, -⟩ := h
    exact ⟨_, microStep_enabled hs hle ((hguard d' s).trans hg) hu', d, rfl, hd⟩
  · have hidle := h.idleAway
    obtain ⟨d, rfl, -⟩ := h
    rw [← hguard d s] at hdis
    exact ⟨_, microStep_disabled hdis, hidle⟩

theorem blind_execAccept : Blind execAccept := by
  intro s s' t h ht
  cases hc : convOperand s with
  | none =>
    rw [execAccept, hc] at ht
    cases ht
    have hidle := h.idleAway
    obtain ⟨d, rfl, -⟩ := h
    have hc' : convOperand (s.withData d) = none := hc
    exact ⟨_, by rw [execAccept, hc'], hidle⟩
  | some opd =>
    simp only [execAccept, hc] at ht
    by_cases hb : s.seq = .idle0 ∧ s.ready = false
    · rw [if_pos hb] at ht
      cases ht
    · obtain ⟨t', ht', hat⟩ := blind_microStep (g := fun _ => true) (fun _ _ => rfl) (blind_accept opd) s s' t h ((if_neg hb).symm.trans ht)
      obtain ⟨d, rfl, -⟩ := h
      have hc' : convOperand (s.withData d) = some opd := hc
      exact ⟨t', by simp only [execAccept, hc']; exact (if_neg hb).trans ht', hat⟩

/-- Whatever DIN reads find, an instruction makes the same pin events and leaves the same sequencer state (R96). -/
theorem blind_exec (i : Instr) : Blind (exec i) := by
  cases i with
  | init opd => exact blind_execInit opd
  | conv opd => exact blind_execConv opd
  | reservedOpc00 _ | reservedOpc03 _ | reservedOpc04To07 _ _ | reservedOpc08To0F _ _ | reservedOpc10To1F _ _
  | reservedOpc20To3F _ _ | reservedOpc40To7F _ _ | reservedOpc80ToFF _ _ => intro s s' t _ ht; cases ht
  | accept => exact blind_execAccept
  | chset0 => exact blind_microStep (fun _ _ => rfl) (blind_eventEffect .channelSet0)
  | chset1 => exact blind_microStep (fun _ _ => rfl) (blind_eventEffect .channelSet1)
  | dtpass => exact blind_microStep (fun _ _ => rfl) (blind_eventEffect .deadTimeWait0)
  | select => exact blind_microStep (fun _ _ => rfl) (blind_eventEffect .deadTimeWait1)
  | startRise => exact blind_microStep (fun _ _ => rfl) (blind_eventEffect .selectedSetup0)
  | startFall => exact blind_microStep (fun _ _ => rfl) (blind_eventEffect .startPulse0)
  | startSample => exact blind_microStep (fun _ _ => rfl) (blind_eventEffect .startPulse1)
  | dataRiseFirst => exact blind_microStep (fun _ _ => rfl) (blind_eventEffect .startPulse2)
  | dataFall => exact blind_microStep (fun _ _ => rfl) (blind_eventEffect .dataPulse0)
  | dataSample => exact blind_microStep (fun _ _ => rfl) (blind_eventEffect .dataPulse1)
  | dataRiseNext | stopRise => exact blind_microStep (fun _ _ => rfl) (blind_eventEffect .dataPulse2)
  | stopFall => exact blind_microStep (fun _ _ => rfl) (blind_eventEffect .stopPulse0)
  | stopSample => exact blind_microStep (fun _ _ => rfl) (blind_eventEffect .stopPulse1)
  | deselect => exact blind_microStep (fun _ _ => rfl) (blind_eventEffect .stopPulse2)
  | stamp => exact blind_microStep (fun _ _ => rfl) (blind_eventEffect .stopPulse3)

/-! ## What is observed -/

/-- Other levels for the coming DIN reads leave a state alike. -/
theorem alike_levels (s : State) (levels : List Bit) (n : Nat) :
    Alike s { s with dinScript := levels, dinCount := n } :=
  ⟨⟨s.shreg, s.result, levels, n, s.trace⟩, rfl, ShowAlike.refl _⟩

theorem ShowAlike.cmdReadyChanges {a b : List (Nat × Event)} (h : ShowAlike a b) :
    cmdReadyChanges a = cmdReadyChanges b :=
  congrArg (changesFrom true) h.cmdReady

/-- What CONV responds is a matter of the time of its stamp and of the data draws (R95, R101). -/
theorem execConv_responses_congr (opd : Byte) {s t : State} (levels : List Bit) (n : Nat) (d : Data)
    (hlevels : ∀ k, 1 ≤ k → k ≤ 8 → ({ s with dinScript := levels, dinCount := n } : State).dinAt k = s.dinAt k)
    (h : execConv opd s = .next t)
    (h' : execConv opd { s with dinScript := levels, dinCount := n } = .next (t.withData d)) :
    responses d.trace = responses t.trace := by
  obtain ⟨hq, hr, -⟩ := execConv_eq_next opd h
  obtain hlt | hle := Nat.lt_or_ge s.time s.tReady
  · cases (execConv_holds opd hq hr hlt).symm.trans h
    have hheld := (execConv_holds (s := { s with dinScript := levels, dinCount := n }) opd hq hr hlt).symm.trans h'
    injection hheld with hheld
    exact congrArg (fun u : State => responses u.trace) hheld.symm
  · have hdraws : (List.range 8).map (fun k => ({ s with dinScript := levels, dinCount := n } : State).dinAt (k + 1)) =
        (List.range 8).map fun k => s.dinAt (k + 1) := by
      refine List.map_congr_left fun k hk => hlevels (k + 1) (by omega) ?_
      have := List.mem_range.1 hk
      omega
    have hrsp := execConv_responses opd (s := { s with dinScript := levels, dinCount := n }) hle h'
    rw [hdraws] at hrsp
    exact hrsp.trans (execConv_responses opd hle h).symm

/-- Settles O26: the states left are alike, and the data levels decide the response. -/
theorem noPinWriteDependsOnData : Obligations.NoPinWriteDependsOnData := by
  refine ⟨fun i s t levels n h => ?pins, fun s t opd levels n h hlevels => ?observation⟩
  case pins =>
    obtain ⟨t', ht', d, rfl, hd⟩ := blind_exec i s _ t (alike_levels s levels n) h
    exact ⟨_, ht', hd.pins, hd.cmdReadyChanges, rfl, rfl, rfl, rfl, rfl, rfl, rfl, rfl, rfl⟩
  case observation =>
    obtain ⟨t', ht', d, rfl, hd⟩ := blind_exec (.conv opd) s _ t (alike_levels s levels n) h
    have hresponses : responses d.trace = responses t.trace :=
      execConv_responses_congr opd levels n d hlevels h ht'
    refine ⟨_, ht', fun o => ?_⟩
    simp only [State.observation, State.withData, hd.pins o, hresponses, hd.cmdReadyChanges]

end Sys2Proof.Machine
end

section
/-! PROOFS. The micro-steps one by one (41_sequencer_phases.md R110 to R128): what each does where it is enabled, that only
time passes where it is not, and the one order they come in. -/

namespace Sys2Proof.Machine

/-! ## A micro-step that is enabled, and one that is not -/

/-- Without a CONV word at the port ACCEPT lets time pass (R111, R127). -/
theorem execAccept_of_no_operand {s : State} (h : convOperand s = none) : execAccept s = .next s.idleAway := by
  rw [execAccept, h]

/-- With a CONV word at the port ACCEPT is its micro-step, but in (IDLE, 0) before INIT (R99, R111). -/
theorem execAccept_of_operand {s : State} {opd : Byte} (h : convOperand s = some opd)
    (hr : ¬(s.seq = .idle0 ∧ s.ready = false)) :
    execAccept s = microStep .idle0 true (acceptEffect opd) (successor s.cfg s.bitcnt .idle0) s := by
  rw [execAccept, h]
  exact if_neg hr

/-- A micro-step that is not enabled lets time pass; of ACCEPT in (IDLE, 0) that is said with Ready only (R110, R127). -/
theorem exec_disabled {i : Instr} {q : SeqState} {s : State} (hi : fromState i = some q)
    (hr : i = .accept → s.seq = .idle0 → s.ready = true)
    (h : ¬(s.seq = q ∧ s.tReady ≤ s.time ∧ ownGuard i s = true)) : exec i s = .next s.idleAway := by
  cases i with
  | accept =>
    cases hi
    show execAccept s = _
    cases hc : convOperand s with
    | none => exact execAccept_of_no_operand hc
    | some opd =>
      rw [execAccept_of_operand hc (by simpa using hr rfl)]
      exact microStep_disabled (by simpa [ownGuard, hc] using h)
  | _ => cases hi <;> exact microStep_disabled h

/-- Everything ACCEPT can answer with a next state. -/
theorem execAccept_eq_next {s t : State} (h : execAccept s = .next t) :
    (s.seq = .idle0 ∧ s.tReady ≤ s.time ∧ (convOperand s).isSome = true ∧ t.seq = successor s.cfg s.bitcnt .idle0) ∨
    t = s.idleAway := by
  cases hc : convOperand s with
  | none => cases (execAccept_of_no_operand hc).symm.trans h; exact .inr rfl
  | some opd =>
    have hr : ¬(s.seq = .idle0 ∧ s.ready = false) := by
      intro hb
      rw [execAccept, hc] at h
      cases (if_pos hb).symm.trans h
    obtain ⟨hq, ht, -, u, -, rfl⟩ | ⟨-, rfl⟩ := microStep_eq_next ((execAccept_of_operand hc hr).symm.trans h)
    · exact .inl ⟨hq, ht, rfl, rfl⟩
    · exact .inr rfl

/-- Everything a micro-step can answer with a next state: it was enabled and led to the one successor, or time passed
(R110, R128). -/
theorem exec_eq_next_of_fromState {i : Instr} {q : SeqState} {s t : State} (hi : fromState i = some q)
    (h : exec i s = .next t) :
    (s.seq = q ∧ s.tReady ≤ s.time ∧ ownGuard i s = true ∧ t.seq = successor s.cfg s.bitcnt q) ∨ t = s.idleAway := by
  by_cases ha : i = .accept
  · subst ha
    cases hi
    exact execAccept_eq_next h
  have hq : q ≠ .idle0 := by rintro rfl; cases i <;> cases hi; exact ha rfl
  by_cases he : s.seq = q ∧ s.tReady ≤ s.time ∧ ownGuard i s = true
  · obtain ⟨hs, ht, hg⟩ := he
    obtain ⟨u, -, hu⟩ := andThen_eq_next ((exec_enabled hi hq hs ht hg).symm.trans h)
    cases hu
    exact .inl ⟨hs, ht, hg, rfl⟩
  · cases (exec_disabled hi (fun hi' => absurd hi' ha) he).symm.trans h
    exact .inr rfl

/-- Settles O43: the micro-step lets time pass, which leaves the engine and everything around it but the slacks. -/
theorem disabledMicroStepsOnlyLetTimePass : Obligations.DisabledMicroStepsOnlyLetTimePass := by
  intro i q s hi hr h
  exact ⟨_, exec_disabled hi (fun ha _ => hr ha) h, sameEngine_idleAway s, by simp, rfl, rfl, rfl⟩

/-- Settles O44: a micro-step either led to the one successor or let time pass. -/
theorem theSequenceIsLinear : Obligations.TheSequenceIsLinear := by
  intro i q s t hi h
  obtain henabled | rfl := exec_eq_next_of_fromState hi h
  · exact .inr henabled
  · exact .inl (sameEngine_idleAway s)

/-! ## Time passing -/

theorem nextMove_of_agenda {s : State} {m : Move} {rest : List Move} (ha : s.agenda = m :: rest) : s.nextMove = m := by
  simp [State.nextMove, ha]

/-- A move that runs no instruction is a step by itself (R127). -/
theorem step_of_became {s u : State} {m : Move} (hm : s.nextMove = m) (hf : fetchMove m s.takeMove = .became u) :
    step s = .next u := by
  simp only [step, fetch, hm, hf]

/-- Settles O12: the move is taken off the agenda, and only time passes. -/
theorem timePassesAndNothingElse : Obligations.TimePassesAndNothingElse := by
  refine ⟨fun s d rest ha => ?pass, fun s u rest ha => ?passUntil, fun s rest ha => ?await⟩
  case pass =>
    rw [step_of_became (nextMove_of_agenda ha) rfl, State.takeMove, ha]
    rfl
  case passUntil =>
    rw [step_of_became (nextMove_of_agenda ha) rfl, State.takeMove, ha, ← add_tsub_eq_max]
    rfl
  case await =>
    exact ⟨_, step_await (nextMove_of_agenda ha), sameEngine_await s.takeMove, time_le_await s.takeMove,
      by simp, by simp, by simp [ha]⟩

/-! ## The state each micro-step leaves -/

/-- Settles O27: ACCEPT finds the operand of the word at the port, and goes to the first event of the conversion. -/
theorem acceptTakesTheCommand : Obligations.AcceptTakesTheCommand := by
  intro s w hq ht hr hw hopc
  have hword : cmd16 0x02 (opdOf w) = w := by rw [← hopc, cmd16_fields]
  have htaken := execAccept_takes hq hr ht (hw.trans (congrArg some hword.symm)) (acceptEffect_eq (opdOf w) s)
  rw [hword] at htaken
  exact htaken

/-- Settles O28: no guard but the hold; C0 is an output where there are channel pins. -/
theorem chset0DrivesC0 : Obligations.Chset0DrivesC0 :=
  fun _ hq ht hc hm => microStep_enabled hq ht rfl (chset0Effect_eq hc hm)

/-- Settles O29: no guard but the hold; C1 is an output where there are channel pins. -/
theorem chset1DrivesC1AndHolds : Obligations.Chset1DrivesC1AndHolds :=
  fun _ hq ht hc hm => microStep_enabled hq ht rfl (chset1Effect_eq hc hm)

/-- Settles O30: the dead-time test is the guard of DTPASS. -/
theorem dtpassTestsTheDeadTime : Obligations.DtpassTestsTheDeadTime := by
  intro s hq ht
  refine ⟨fun hpass => ?passes, fun hfail => ?fails⟩
  case passes => exact microStep_enabled hq ht (decide_eq_true hpass) (dtpassEffect_eq s)
  case fails =>
    have hdisabled := exec_disabled (i := .dtpass) (s := s) rfl nofun fun ⟨_, _, hg⟩ => hfail (of_decide_eq_true hg)
    exact ⟨_, hdisabled, sameEngine_idleAway s, rfl⟩

/-- Settles O31: no guard but the hold; CS is an output. -/
theorem selectAssertsChipSelect : Obligations.SelectAssertsChipSelect :=
  fun _ hq ht hm => microStep_enabled hq ht rfl (selectEffect_eq hm)

/-- Settles O32: the hold is T_CSS; CLK is an output. -/
theorem startRiseRaisesTheClock : Obligations.StartRiseRaisesTheClock :=
  fun _ hq ht hm => microStep_enabled hq ht rfl (riseEffect_eq hm)

/-- Settles O33: the hold is T_CKH; CLK is an output. -/
theorem startFallLowersTheClock : Obligations.StartFallLowersTheClock :=
  fun _ hq ht hm => microStep_enabled hq ht rfl (fallEffect_eq hm)

/-- Settles O34: DIN is an input with pull-up, so the level is a draw. -/
theorem startSampleIsDiscarded : Obligations.StartSampleIsDiscarded :=
  fun _ hq ht hm => microStep_enabled hq ht rfl (startSampleEffect_eq hm)

/-- Settles O35: in (DATA_PULSE, 2) the guard of DATA_RISE is that BITCNT is below 8. -/
theorem dataRiseRaisesTheClock : Obligations.DataRiseRaisesTheClock :=
  fun _ ht hm =>
    ⟨fun hq => microStep_enabled hq ht rfl (riseEffect_eq hm),
      fun hq hk => microStep_enabled hq ht (decide_eq_true hk) (riseEffect_eq hm)⟩

/-- Settles O36: the hold is T_CKH; CLK is an output. -/
theorem dataFallLowersTheClock : Obligations.DataFallLowersTheClock :=
  fun _ hq ht hm => microStep_enabled hq ht rfl (fallEffect_eq hm)

/-- Settles O37: with BITCNT below 8 there is room for the sample. -/
theorem dataSampleShiftsOneBitIn : Obligations.DataSampleShiftsOneBitIn :=
  fun _ hq ht hm hk => microStep_enabled hq ht rfl (dataSampleEffect_eq hm hk)

/-- Settles O38: the guard of STOP_RISE is that BITCNT is 8. -/
theorem stopRiseRaisesTheClock : Obligations.StopRiseRaisesTheClock :=
  fun _ hq hk ht hm => microStep_enabled hq ht (decide_eq_true hk) (riseEffect_eq hm)

/-- Settles O39: the hold is T_CKH; CLK is an output. -/
theorem stopFallLowersTheClock : Obligations.StopFallLowersTheClock :=
  fun _ hq ht hm => microStep_enabled hq ht rfl (fallEffect_eq hm)

/-- Settles O40: DIN is an input with pull-up, so the level is a draw. -/
theorem stopSampleIsDiscarded : Obligations.StopSampleIsDiscarded :=
  fun _ hq ht hm => microStep_enabled hq ht rfl (stopSampleEffect_eq hm)

/-- Settles O41: no guard but the hold; CS is an output. -/
theorem deselectRaisesChipSelect : Obligations.DeselectRaisesChipSelect :=
  fun _ hq ht hm => microStep_enabled hq ht rfl (deselectEffect_eq hm)

/-- Settles O42: no guard but the hold; no pin is asked for. -/
theorem stampCompletesTheConversion : Obligations.StampCompletesTheConversion :=
  fun s hq ht => microStep_enabled hq ht rfl (stampEffect_eq s)

end Sys2Proof.Machine
end

section
/-! PROOFS. The datapath: shifting draws in, the channel levels, and the elapsed time (42_datapath_primitives.md). -/

namespace Sys2Proof.Machine

/-! ## Shifting in (R140, R146) -/

/-- `{r[6:0], b}`: the shift makes room for the bit, and the top bit of `r` is lost. -/
theorem shiftIn_eq_append (r : Byte) (b : Bit) : shiftIn r b = r.extractLsb' 0 7 ++ b := by
  refine BitVec.eq_of_getLsbD_eq fun i hi => ?_
  rw [getLsbD_shiftIn r b hi, BitVec.getLsbD_append]
  obtain _ | i := i
  · simp
  · have hi' : i < 7 := by omega
    simp [hi']

/-- Settles O55: the top bit is lost, and the new bit is bit 0. -/
theorem shiftInShiftsLeftAndAppends : Obligations.ShiftInShiftsLeftAndAppends :=
  fun r b => ⟨shiftIn_eq_append r b, toNat_shiftIn r b⟩

/-- Settles O56, by induction on the number of shift-ins. -/
theorem eightShiftInsHoldTheDraws : Obligations.EightShiftInsHoldTheDraws :=
  fun r d => ⟨fun k _ _ hi => getLsbD_foldl_shiftIn d r k hi, toNat_foldl_shiftIn_eight d r⟩

/-! ## The channel levels (R141, R79) -/

/-- A one-bit slice of a byte as a number. -/
theorem toNat_extractLsb'_one (v : Byte) (k : Nat) : (v.extractLsb' k 1).toNat = v.toNat / 2 ^ k % 2 := by
  rw [BitVec.extractLsb'_toNat, Nat.shiftRight_eq_div_pow, Nat.pow_one]

/-- CHSEL is `{c1, c0}`. -/
theorem chanBits_eq_append (v : Byte) : chanBits v = (chanDecode v).2 ++ (chanDecode v).1 :=
  (BitVec.extractLsb'_append_extractLsb'_eq_extractLsb' (x := v) (Nat.zero_add 1).symm).symm

/-- The level of C0 that CHSEL holds is the one ChanDecode gives. -/
theorem chanLevel0_chanBits (v : Byte) : chanLevel0 (chanBits v) = (chanDecode v).1 := by
  rw [chanBits_eq_append]
  exact BitVec.extractLsb'_append_eq_right

/-- The level of C1 that CHSEL holds is the one ChanDecode gives. -/
theorem chanLevel1_chanBits (v : Byte) : chanLevel1 (chanBits v) = (chanDecode v).2 := by
  rw [chanBits_eq_append]
  exact BitVec.extractLsb'_append_eq_left

/-- Settles O57: the levels are slices of CHSEL, and CHSEL is a slice of the operand. -/
theorem chanDecodeTakesTheLowBits : Obligations.ChanDecodeTakesTheLowBits := by
  intro v
  refine ⟨?c0, ?c1, chanBits_eq_append v, chanLevel0_chanBits v, chanLevel1_chanBits v⟩
  case c0 => exact (toNat_extractLsb'_one v 0).trans (by rw [Nat.pow_zero, Nat.div_one])
  case c1 => exact toNat_extractLsb'_one v 1

/-! ## Elapsed time (R142, R188) -/

/-- For two readings of the time base: the difference, plus one turn when the first is below the second. -/
theorem elapsed_toNat_of_lt {w now last : Nat} (hnow : now < 2 ^ w) (hlast : last < 2 ^ w) :
    (elapsed w now last).toNat = if last ≤ now then now - last else now + 2 ^ w - last := by
  rw [elapsed_toNat, Nat.mod_eq_of_lt hlast]
  split
  case isTrue h =>
    have hturn : now + (2 ^ w - last) = now - last + 2 ^ w := by omega
    rw [hturn, Nat.add_mod_right, Nat.mod_eq_of_lt (by omega)]
  case isFalse h => rw [← Nat.add_sub_assoc hlast.le, Nat.mod_eq_of_lt (by omega)]

/-- No time has passed since a stamp taken at the same time. -/
theorem elapsed_stamp_self (w t : Nat) : elapsed w t (t % 2 ^ w) = 0#w := by
  rw [← elapsed_mod]
  exact BitVec.sub_self _

/-- However the time base wraps, less than one turn after a stamp Elapsed is the time that has truly passed. -/
theorem elapsed_exact {w a b : Nat} (hab : a ≤ b) (hturn : b - a < 2 ^ w) :
    (elapsed w (b % 2 ^ w) (a % 2 ^ w)).toNat = b - a := by
  obtain ⟨d, rfl⟩ := Nat.exists_eq_add_of_le hab
  rw [Nat.add_sub_cancel_left] at hturn ⊢
  rw [elapsed_mod, elapsed_add, elapsed_stamp_self, BitVec.toNat_zero, Nat.zero_add, Nat.mod_eq_of_lt hturn]

/-- Settles O58: the difference is taken modulo one turn of the time base, so its wraps cancel. -/
theorem elapsedIsExactWithinOneTurn : Obligations.ElapsedIsExactWithinOneTurn :=
  ⟨fun _ _ _ hnow hlast => elapsed_toNat_of_lt hnow hlast, fun _ _ _ hab hturn => elapsed_exact hab hturn⟩

end Sys2Proof.Machine
end

section
/-! PROOFS. The dead-time test (70_reset_and_hazards.md R183, R188): what a wrap of the time base can do to it, and where it
passes before any conversion. -/

namespace Sys2Proof.Machine

/-- The test as a comparison of numbers (42_datapath_primitives.md R142). -/
theorem deadTimeOk_iff (c : Params) (now last : Nat) :
    deadTimeOk c now last = true ↔ c.tCsh ≤ (elapsed c.wT now last).toNat :=
  decide_eq_true_iff

/-! ## The test against a stamp (R188) -/

/-- Between two readings of the time base Elapsed is the time that has truly passed but for the whole turns in it. -/
theorem elapsed_nowAt {a b : Nat} (c : Params) (hab : a ≤ b) :
    (elapsed c.wT (nowAt c b) (nowAt c a)).toNat = (b - a) % 2 ^ c.wT := by
  obtain ⟨d, rfl⟩ := Nat.exists_eq_add_of_le hab
  rw [nowAt, nowAt, elapsed_mod, elapsed_add, elapsed_stamp_self, BitVec.toNat_zero, Nat.zero_add, Nat.add_sub_cancel_left]

/-- A wrap only makes Elapsed too small, so the test never passes before T_CSH has truly passed. -/
theorem tCsh_le_of_deadTimeOk {c : Params} {a b : Nat} (hab : a ≤ b)
    (hok : deadTimeOk c (nowAt c b) (nowAt c a) = true) : c.tCsh ≤ b - a :=
  calc c.tCsh ≤ (elapsed c.wT (nowAt c b) (nowAt c a)).toNat := (deadTimeOk_iff ..).1 hok
    _ = (b - a) % 2 ^ c.wT := elapsed_nowAt c hab
    _ ≤ b - a := Nat.mod_le ..

/-- What is left of the dead time is never more than the whole of it. -/
theorem deadTimeLeft_le_tCsh (c : Params) (now last : Nat) : deadTimeLeft c now last ≤ c.tCsh :=
  Nat.sub_le ..

/-- Settles O59: Elapsed is never above the true time, and the test passes once what is left of T_CSH has passed. -/
theorem deadTimeNeverPassesEarly : Obligations.DeadTimeNeverPassesEarly :=
  fun c a b hab => ⟨tCsh_le_of_deadTimeOk hab,
    deadTimeLeft c (nowAt c b) (nowAt c a), deadTimeLeft_le_tCsh .., deadTimeOk_after_left c b (nowAt c a)⟩

/-! ## The test before any conversion (R183) -/

/-- Against T_DESEL as reset leaves it, Elapsed is NOW itself. -/
theorem elapsed_nowAt_reset (c : Params) (t : Nat) :
    (elapsed c.wT (nowAt c t) State.reset.tDesel).toNat = nowAt c t := by
  have hreset : State.reset.tDesel = nowAt c 0 := (Nat.zero_mod _).symm
  rw [hreset, elapsed_nowAt c t.zero_le, Nat.sub_zero, nowAt]

/-- Settles O60: what the test compares with T_CSH is NOW. -/
theorem firstDeadTimeTestNeedsNowAtLeastTCsh : Obligations.FirstDeadTimeTestNeedsNowAtLeastTCsh := by
  intro c t
  rw [deadTimeOk_iff, elapsed_nowAt_reset]

end Sys2Proof.Machine
end
